-- ==== Sys2Proof/Word.lean ====
section
/-! DEFINITION. The widths of the block's words and operands (spec/00_scope.md R6, R7). -/

namespace Sys2Proof

/-- A byte is 8 bits (R7). -/
abbrev Byte := BitVec 8
/-- A bus identifier, `BUSW` = 32 bits unsigned (R6). -/
abbrev BusId := BitVec 32
/-- A device address, `ADDRW` = 7 bits (R6). -/
abbrev DevAddr := BitVec 7
/-- A Register Address, `REGW` = 8 bits (R6). -/
abbrev RegAddr := BitVec 8
/-- A settle delay in ticks, `DELAYW` = 32 bits unsigned (R6). -/
abbrev Ticks := BitVec 32
/-- A length or count of bytes, `LENW` = 16 bits unsigned (R6). -/
abbrev Len := BitVec 16
/-- A 16-bit scalar (R6). -/
abbrev Half := BitVec 16
/-- Opaque error information of a failing reply, `ERRW` = 32 bits (R6, R60). -/
abbrev Info := BitVec 32
/-- The RESULT field of a response, `RESW` = 32 bits (R6). -/
abbrev ResultWord := BitVec 32
/-- A command word, `CMDW` = 64 bits (R6, R80). -/
abbrev CmdWord := BitVec 64
/-- A response word, `RSPW` = 64 bits (R6, R90). -/
abbrev RspWord := BitVec 64

end Sys2Proof
end

