-- ==== Sys2Proof/Config.lean ====
section
/-! DEFINITION. What the spec leaves to an implementation (spec/00_scope.md R6) and the model's free values:
constants without a body, so that no proof can see what they are. -/

namespace Sys2Proof

/-- `TRACE_ON_ERROR` (R6, R223, D33): whether a failed transport write or read emits a trace event. The spec's value. -/
def Config.traceOnError : Bool := false

/-- `T_TICK` (R6, R220, D34), left OPEN by the spec: the tick period, in a unit the spec does not name. No rule's outcome
depends on it and nothing in the model reads it (log entry 15). -/
opaque Config.tickPeriod : Nat

/-- Free value: byte `k` of BUF at the `n`-th draw, where the spec says BUF is unspecified (R23, R41; log entries 5, 6). -/
opaque Config.freeByte (n k : Nat) : Byte

/-- Free value: CMDREG at the `n`-th draw, where the spec says CMDREG is unspecified (R41; log entry 5). -/
opaque Config.freeCmdWord (n : Nat) : CmdWord

/-- Free value: the bytes at the `n`-th draw of which a failing READ_BYTES delivers at most LEN (R91; log entry 7). -/
opaque Config.freeData (n : Nat) : List Byte

end Sys2Proof
end

