-- ==== Sys2Proof/Syntax.lean ====
section
/-! DEFINITION. The 17 commands of spec/30_encoding.md R87 with their operands (R81 to R86, R88). -/

namespace Sys2Proof

/-- A command of the host, one constructor per row of spec/opcode_table.json, its operands as R88 names them. -/
inductive Instr where
  /-- `BIND addr, bus` (R111): BADDR, BBUS. -/
  | bind (addr : DevAddr) (bus : BusId)
  /-- `CLOSE` (R113). -/
  | close
  /-- `GET_BUS` (R115). -/
  | getBus
  /-- `GET_ADDR` (R117). -/
  | getAddr
  /-- `WRITE_BYTES [b0, b1, ...]` (R130): LEN and the payload that travels beside the word. -/
  | writeBytes (len : Len) (payload : List Byte)
  /-- `READ_BYTES n` (R132): LEN. -/
  | readBytes (len : Len)
  /-- `READ_U8 reg, delay` (R161). -/
  | readU8 (reg : RegAddr) (delay : Ticks)
  /-- `READ_U16_BE reg, delay` (R162). -/
  | readU16Be (reg : RegAddr) (delay : Ticks)
  /-- `READ_U16_LE reg, delay` (R163). -/
  | readU16Le (reg : RegAddr) (delay : Ticks)
  /-- `READ_S16_BE reg, delay` (R164). -/
  | readS16Be (reg : RegAddr) (delay : Ticks)
  /-- `READ_S16_LE reg, delay` (R165). -/
  | readS16Le (reg : RegAddr) (delay : Ticks)
  /-- `WRITE_U8 reg, value` (R181): DATA8. -/
  | writeU8 (reg : RegAddr) (data : Byte)
  /-- `WRITE_S8 reg, value` (R182): DATA8, a two's-complement pattern. -/
  | writeS8 (reg : RegAddr) (data : Byte)
  /-- `WRITE_U16_BE reg, value` (R183): DATA16. -/
  | writeU16Be (reg : RegAddr) (data : Half)
  /-- `WRITE_U16_LE reg, value` (R184): DATA16 as the host means it, not swapped. -/
  | writeU16Le (reg : RegAddr) (data : Half)
  /-- `WRITE_S16_BE reg, value` (R185): DATA16, a two's-complement pattern. -/
  | writeS16Be (reg : RegAddr) (data : Half)
  /-- `WRITE_S16_LE reg, value` (R186): DATA16, a two's-complement pattern, not swapped. -/
  | writeS16Le (reg : RegAddr) (data : Half)
  deriving DecidableEq, Repr

end Sys2Proof
end

