-- ==== Sys2Proof/WellFormed.lean ====
section
/-! DEFINITION. When a command term is one that some (word, payload) carries (spec/30_encoding.md R86, R89 item 3). Every
other operand is a field of exactly its width, so the one check is WRITE_BYTES's length. -/

namespace Sys2Proof

/-- `WRITE_BYTES`: `len(payload) = LEN` (R130). Every other term is well formed. -/
def Instr.wf : Instr → Bool
  | .writeBytes len payload => payload.length == len.toNat
  | .bind _ _ | .close | .getBus | .getAddr | .readBytes _ => true
  | .readU8 _ _ | .readU16Be _ _ | .readU16Le _ _ | .readS16Be _ _ | .readS16Le _ _ => true
  | .writeU8 _ _ | .writeS8 _ _ => true
  | .writeU16Be _ _ | .writeU16Le _ _ | .writeS16Be _ _ | .writeS16Le _ _ => true

end Sys2Proof
end

