-- ==== Sys2Proof/Decode.lean ====
section
/-! DEFINITION. The command word: formats, opcodes, decoder and encoder (spec/30_encoding.md R80 to R93). -/

namespace Sys2Proof

/-- A command as it stands at the command port: a 64-bit word and a payload (R80). -/
structure Command where
  word : CmdWord
  payload : List Byte
  deriving DecidableEq, Repr

/-- The six formats (R81 to R86). -/
inductive Format where
  | n | b | r | w8 | w16 | x
  deriving DecidableEq, Repr

/-- The 17 opcodes (R87), by mnemonic. -/
inductive Op where
  | bind | close | getBus | getAddr
  | writeBytes | readBytes
  | readU8 | readU16Be | readU16Le | readS16Be | readS16Le
  | writeU8 | writeS8 | writeU16Be | writeU16Le | writeS16Be | writeS16Le
  deriving DecidableEq, Repr

/-- Why a command is `IllegalCommand` (R204). The decoder gives the first three, the lifecycle check the last two. -/
inductive Subcode where
  | reservedOpcode | reservedBits | payloadMismatch | noChannel | alreadyBound
  deriving DecidableEq, Repr

/-- What the decoder answers (R92): a command, or `Illegal(s)`. -/
inductive Decoded where
  | illegal (sub : Subcode)
  | command (i : Instr)
  deriving DecidableEq, Repr

/-- The subcode's number in RESULT (R204). -/
def Subcode.code : Subcode → ResultWord
  | .reservedOpcode => 1
  | .reservedBits => 2
  | .payloadMismatch => 3
  | .noChannel => 4
  | .alreadyBound => 5

/-- The OP byte of an opcode (R87). -/
def Op.code : Op → Byte
  | .bind => 0x01
  | .close => 0x02
  | .getBus => 0x03
  | .getAddr => 0x04
  | .writeBytes => 0x10
  | .readBytes => 0x11
  | .readU8 => 0x20
  | .readU16Be => 0x21
  | .readU16Le => 0x22
  | .readS16Be => 0x23
  | .readS16Le => 0x24
  | .writeU8 => 0x30
  | .writeS8 => 0x31
  | .writeU16Be => 0x32
  | .writeU16Le => 0x33
  | .writeS16Be => 0x34
  | .writeS16Le => 0x35

/-- The rows of R87, in its order. -/
def Op.all : List Op :=
  [.bind, .close, .getBus, .getAddr, .writeBytes, .readBytes,
   .readU8, .readU16Be, .readU16Le, .readS16Be, .readS16Le,
   .writeU8, .writeS8, .writeU16Be, .writeU16Le, .writeS16Be, .writeS16Le]

/-- The row of R87 with this OP byte; the whole byte is matched. -/
def Op.ofCode (c : Byte) : Option Op := Op.all.find? fun o => o.code == c

/-- The column "format" of R87. -/
def Op.format : Op → Format
  | .bind => .b
  | .close | .getBus | .getAddr => .n
  | .writeBytes | .readBytes => .x
  | .readU8 | .readU16Be | .readU16Le | .readS16Be | .readS16Le => .r
  | .writeU8 | .writeS8 => .w8
  | .writeU16Be | .writeU16Le | .writeS16Be | .writeS16Le => .w16

/-- `reserved_mask` (R92). -/
def Format.reservedMask : Format → CmdWord
  | .n => 0xFFFFFFFFFFFFFF00
  | .b => 0x00000000FFFF8000
  | .r => 0x00000000FFFF0000
  | .w8 => 0xFFFFFFFFFF000000
  | .w16 => 0xFFFFFFFF00000000
  | .x => 0xFFFFFFFF0000FF00

/-- `OP = word[7:0]` (R80). -/
def opField (w : CmdWord) : Byte := w.extractLsb' 0 8
/-- `BADDR = word[14:8]` (R88). -/
def baddrField (w : CmdWord) : DevAddr := w.extractLsb' 8 7
/-- `BBUS = word[63:32]` (R88). -/
def bbusField (w : CmdWord) : BusId := w.extractLsb' 32 32
/-- `REG = word[15:8]` (R88). -/
def regField (w : CmdWord) : RegAddr := w.extractLsb' 8 8
/-- `DELAY = word[63:32]` (R88). -/
def delayField (w : CmdWord) : Ticks := w.extractLsb' 32 32
/-- `DATA8 = word[23:16]` (R88). -/
def data8Field (w : CmdWord) : Byte := w.extractLsb' 16 8
/-- `DATA16 = word[31:16]` (R88). -/
def data16Field (w : CmdWord) : Half := w.extractLsb' 16 16
/-- `LEN = word[31:16]` (R88). -/
def lenField (w : CmdWord) : Len := w.extractLsb' 16 16

/-- The command of an opcode with its format's fields taken from the word (R92, last line). -/
def Op.build (o : Op) (w : CmdWord) (payload : List Byte) : Instr :=
  match o with
  | .bind => .bind (baddrField w) (bbusField w)
  | .close => .close
  | .getBus => .getBus
  | .getAddr => .getAddr
  | .writeBytes => .writeBytes (lenField w) payload
  | .readBytes => .readBytes (lenField w)
  | .readU8 => .readU8 (regField w) (delayField w)
  | .readU16Be => .readU16Be (regField w) (delayField w)
  | .readU16Le => .readU16Le (regField w) (delayField w)
  | .readS16Be => .readS16Be (regField w) (delayField w)
  | .readS16Le => .readS16Le (regField w) (delayField w)
  | .writeU8 => .writeU8 (regField w) (data8Field w)
  | .writeS8 => .writeS8 (regField w) (data8Field w)
  | .writeU16Be => .writeU16Be (regField w) (data16Field w)
  | .writeU16Le => .writeU16Le (regField w) (data16Field w)
  | .writeS16Be => .writeS16Be (regField w) (data16Field w)
  | .writeS16Le => .writeS16Le (regField w) (data16Field w)

/-- How long the payload of a command with this opcode and word must be (R80, R89 item 3). -/
def payloadLength (o : Op) (w : CmdWord) : Nat :=
  if o = .writeBytes then (lenField w).toNat else 0

/-- The decoder (R92), total on every word and payload, with the tests in the order of R89. -/
def decode (w : CmdWord) (payload : List Byte) : Decoded :=
  match Op.ofCode (opField w) with
  | none => .illegal .reservedOpcode
  | some o =>
    if w &&& o.format.reservedMask ≠ 0 then .illegal .reservedBits
    else if payload.length ≠ payloadLength o w then .illegal .payloadMismatch
    else .command (o.build w payload)

/-- Format N (R81). -/
def wordN (op : Byte) : CmdWord := (0 : BitVec 56) ++ op
/-- Format B (R82). -/
def wordB (op : Byte) (addr : DevAddr) (bus : BusId) : CmdWord :=
  bus ++ ((0 : BitVec 16) ++ ((0 : BitVec 1) ++ (addr ++ op)))
/-- Format R (R83). -/
def wordR (op : Byte) (reg : RegAddr) (delay : Ticks) : CmdWord :=
  delay ++ ((0 : BitVec 16) ++ (reg ++ op))
/-- Format W8 (R84). -/
def wordW8 (op : Byte) (reg : RegAddr) (data : Byte) : CmdWord :=
  (0 : BitVec 40) ++ (data ++ (reg ++ op))
/-- Format W16 (R85). -/
def wordW16 (op : Byte) (reg : RegAddr) (data : Half) : CmdWord :=
  (0 : BitVec 32) ++ (data ++ (reg ++ op))
/-- Format X (R86). -/
def wordX (op : Byte) (len : Len) : CmdWord :=
  (0 : BitVec 32) ++ (len ++ ((0 : BitVec 8) ++ op))

/-- The command's opcode (R87). -/
def Instr.op : Instr → Op
  | .bind _ _ => .bind
  | .close => .close
  | .getBus => .getBus
  | .getAddr => .getAddr
  | .writeBytes _ _ => .writeBytes
  | .readBytes _ => .readBytes
  | .readU8 _ _ => .readU8
  | .readU16Be _ _ => .readU16Be
  | .readU16Le _ _ => .readU16Le
  | .readS16Be _ _ => .readS16Be
  | .readS16Le _ _ => .readS16Le
  | .writeU8 _ _ => .writeU8
  | .writeS8 _ _ => .writeS8
  | .writeU16Be _ _ => .writeU16Be
  | .writeU16Le _ _ => .writeU16Le
  | .writeS16Be _ _ => .writeS16Be
  | .writeS16Le _ _ => .writeS16Le

/-- The command's word (R81 to R87). -/
def Instr.word (i : Instr) : CmdWord :=
  match i with
  | .bind addr bus => wordB i.op.code addr bus
  | .close | .getBus | .getAddr => wordN i.op.code
  | .writeBytes len _ | .readBytes len => wordX i.op.code len
  | .readU8 reg delay | .readU16Be reg delay | .readU16Le reg delay => wordR i.op.code reg delay
  | .readS16Be reg delay | .readS16Le reg delay => wordR i.op.code reg delay
  | .writeU8 reg data | .writeS8 reg data => wordW8 i.op.code reg data
  | .writeU16Be reg data | .writeU16Le reg data => wordW16 i.op.code reg data
  | .writeS16Be reg data | .writeS16Le reg data => wordW16 i.op.code reg data

/-- The command's payload: empty but for WRITE_BYTES (R80). -/
def Instr.payload : Instr → List Byte
  | .writeBytes _ payload => payload
  | _ => []

/-- The (word, payload) that carries a command (R80). -/
def encode (i : Instr) : Command := ⟨i.word, i.payload⟩

/-- A payload of zero bytes of the length the word calls for: what stands beside a word given with no payload of its own. -/
def zeroPayload (w : CmdWord) : List Byte :=
  if opField w = Op.writeBytes.code then List.replicate (lenField w).toNat 0 else []

/-- The command at the port for a table word: the `nbits` bits of `w`, every further bit and payload byte zero. -/
def tableCommand (nbits w : Nat) : Command :=
  let word := BitVec.ofNat 64 (w % 2 ^ nbits)
  ⟨word, zeroPayload word⟩

/-- What the decoder reads from a table word (the host's question). -/
def decodeTableWord (nbits w : Nat) : Option Instr :=
  match decode (tableCommand nbits w).word (tableCommand nbits w).payload with
  | .command i => some i
  | .illegal _ => none

end Sys2Proof
end

