-- ==== Sys2Proof/Machine/State.lean ====
section
/-! DEFINITION. The state of the block (spec/10_state.md), its ports (spec/20_memory.md R55, spec/60_exceptions.md R222), and
the ways a step can end. -/

namespace Sys2Proof.Machine

/-- STATE, the lifecycle state (R31). The value 3 is never reached and has no constructor (log entry 12). -/
inductive Lifecycle where
  /-- `Unbound`: no channel exists (R32). -/
  | unbound
  /-- `Open`: bound, accepts all operations. -/
  | opened
  /-- `Closed`: terminal until a reset. -/
  | closed
  deriving DecidableEq, Repr

/-- PHASE, the sequencer's position (R27). The values 6 and 7 are never reached and have no constructor (log entry 12). -/
inductive Phase where
  | idle | bindWait | selectWait | settle | dataWait | releaseWait
  deriving DecidableEq, Repr

/-- BUF, three bytes (R23): `b0` is BUF[0], first on the wire. -/
structure Buf where
  b0 : Byte
  b1 : Byte
  b2 : Byte
  deriving DecidableEq, Repr

/-- A request on a collaborator port (R55): `TBind` on `BB` (R61), `TWrite`, `TRead`, `TRelease` on `BT` (R56 to R58). -/
inductive Request where
  | bind (bus : BusId) (addr : DevAddr)
  | write (bytes : List Byte)
  | read (n : Len)
  | release
  deriving DecidableEq, Repr

/-- STATUS of a response (R200). -/
inductive Status where
  | ok | bindError | transferError | channelClosed | illegalCommand
  deriving DecidableEq, Repr

/-- `op` of a trace event (R222). -/
inductive TraceOp where
  | read | write
  deriving DecidableEq, Repr

/-- A trace event (R222); `delay` is present only on the read event of a register read (R224). -/
structure TraceEvent where
  op : TraceOp
  length : Len
  payload : List Byte
  delay : Option Ticks
  deriving DecidableEq, Repr

/-- A response: a 64-bit word and a byte sequence (R90). -/
structure Response where
  word : RspWord
  data : List Byte
  deriving DecidableEq, Repr

/-- What the block emits on its ports: a request, a trace event, a response. -/
inductive Output where
  | request (r : Request)
  | trace (e : TraceEvent)
  | response (r : Response)
  deriving DecidableEq, Repr

/-- What arrives at the block from outside (R10, R28): the host presents a command (R246), the reset input is asserted
(R240), the timebase ticks (R220), a collaborator replies (R56, R57, R58, R61). `err` and `info` as the replies have them. -/
inductive Event where
  | present (c : Command)
  | reset
  | tick
  | bindReply (err : Bool) (info : Info)
  | writeReply (err : Bool) (info : Info) (count : Len)
  | readReply (err : Bool) (info : Info) (count : Len) (data : List Byte)
  | releaseReply (err : Bool) (info : Info)
  deriving DecidableEq, Repr

/-- The machine's state: the block's seven elements (R41), its ports with what is owed on them, and two fields of the
model's own. -/
structure State where
  /-- STATE (R31). -/
  lifecycle : Lifecycle
  /-- BUS (R34). -/
  bus : BusId
  /-- ADDR (R35). -/
  addr : DevAddr
  /-- PHASE (R27). -/
  phase : Phase
  /-- CMDREG (R21). -/
  cmdreg : CmdWord
  /-- TMR (R36, R217). -/
  tmr : Ticks
  /-- BUF (R23). -/
  buf : Buf
  /-- The one request outstanding over `BT` and `BB` together (R55, R38 item 4). -/
  pending : Option Request
  /-- Requests whose command a reset abandoned: they are not recalled, and the collaborators still owe their replies, which the
  block discards in IDLE (R241). They stand with the collaborators, outside the block (log entry 21). -/
  abandoned : List Request
  /-- The commands that wait at the command port, outside the block, first presented first (R246). -/
  port : List Command
  /-- What arrives at the block, first arrival first; each step consumes at most one (R28; log entries 1, 2). -/
  events : List Event
  /-- The model's own: everything emitted so far, oldest first. Nothing reads it (R225; log entry 13). -/
  outputs : List Output
  /-- The model's own: how many free values have been drawn (log entry 5). -/
  freeIx : Nat
  deriving DecidableEq, Repr

/-- States in which the sequencer has no step (R28); no run from reset reaches one (log entry 12). Stopping is safe: no
step is claimed where the spec gives none. -/
inductive Fault where
  /-- Raised by `step`: PHASE is not IDLE and CMDREG names no command. Safe. -/
  | noCommandInFlight
  /-- Raised by a command's meaning: PHASE is one the command never takes (R29). Safe. -/
  | phaseNotOfCommand
  deriving DecidableEq, Repr

/-- What the model has no step for because the spec says to refuse it. -/
inductive Refusal where
  /-- Raised by an arm of `exec` whose instruction has no meaning yet; no arm raises it now. Safe. -/
  | notModelled (mnemonic : String)
  /-- Raised by the steps that wait for a transport reply: a reply with `err = 0` whose count or data is not the whole
  request, which breaks the success contract (R59, U4; log entry 8). Safe. -/
  | brokenTransportContract
  /-- Raised by the steps of a command in flight: a reply that answers no outstanding request (R28, R55, U15; log entry 9). Safe. -/
  | replyNotAwaited
  deriving DecidableEq, Repr

/-- The machine right after reset (R41, R240). CMDREG and BUF are unspecified there: zero is the model's choice (log entry
4). Nothing is at the ports (log entry 3). -/
def State.reset : State where
  lifecycle := .unbound
  bus := 0
  addr := 0
  phase := .idle
  cmdreg := 0
  tmr := 0
  buf := ⟨0, 0, 0⟩
  pending := none
  abandoned := []
  port := []
  events := []
  outputs := []
  freeIx := 0

end Sys2Proof.Machine
end

