-- ==== Sys2Proof/Machine/Flags.lean ====
section
/-! DEFINITION. The block has no flags (spec/10_state.md R25). What reports a command's outcome is the response word
(spec/30_encoding.md R90); its numbers, and those of STATE and PHASE, are here. -/

namespace Sys2Proof.Machine

/-- The number of a status (R200). -/
def Status.code : Status → Byte
  | .ok => 0
  | .bindError => 1
  | .transferError => 2
  | .channelClosed => 3
  | .illegalCommand => 4

/-- The response word: STATUS `[7:0]`, zero `[15:8]`, COUNT `[31:16]`, RESULT `[63:32]` (R90). -/
def responseWord (st : Status) (count : Len) (result : ResultWord) : RspWord :=
  result ++ (count ++ ((0 : BitVec 8) ++ st.code))

/-- STATUS of a response word (R90). -/
def statusField (w : RspWord) : Byte := w.extractLsb' 0 8
/-- COUNT of a response word (R90). -/
def countField (w : RspWord) : Len := w.extractLsb' 16 16
/-- RESULT of a response word (R90). -/
def resultField (w : RspWord) : ResultWord := w.extractLsb' 32 32

/-- The number of a lifecycle state (R31). -/
def Lifecycle.code : Lifecycle → BitVec 2
  | .unbound => 0
  | .opened => 1
  | .closed => 2

/-- The number of a phase (R27). -/
def Phase.code : Phase → BitVec 3
  | .idle => 0
  | .bindWait => 1
  | .selectWait => 2
  | .settle => 3
  | .dataWait => 4
  | .releaseWait => 5

end Sys2Proof.Machine
end

