-- ==== Sys2Proof/Machine/Operands.lean ====
section
/-! DEFINITION. The endianness converter (spec/42_converter.md), the frames of register writes (spec/44_register_write.md
R180), and BUF as their working storage (spec/10_state.md R23). -/

namespace Sys2Proof.Machine

/-- `be16(b0, b1)` (R140): most significant byte first. -/
def be16 (b0 b1 : Byte) : Half := (b0.zeroExtend 16 <<< 8) + b1.zeroExtend 16

/-- `swap16(v) = {v[7:0], v[15:8]}` (R141). -/
def swap16 (v : Half) : Half := (v.extractLsb' 0 8 : Byte) ++ (v.extractLsb' 8 8 : Byte)

/-- `hi8(v) = v[15:8]` (R142). -/
def hi8 (v : Half) : Byte := v.extractLsb' 8 8

/-- `lo8(v) = v[7:0]` (R142). -/
def lo8 (v : Half) : Byte := v.extractLsb' 0 8

/-- `be16_bytes(v) = [hi8(v), lo8(v)]` (R142). -/
def be16Bytes (v : Half) : List Byte := [hi8 v, lo8 v]

/-- `le16(b0, b1) = swap16(be16(b0, b1))` (R143). -/
def le16 (b0 b1 : Byte) : Half := swap16 (be16 b0 b1)

/-- `le16_bytes(v) = be16_bytes(swap16(v))` (R143). -/
def le16Bytes (v : Half) : List Byte := be16Bytes (swap16 v)

/-- `zext_32` of a byte (R144). -/
def zext8 (b : Byte) : ResultWord := b.zeroExtend 32

/-- `zext_32` of a 16-bit value (R144). -/
def zext16 (v : Half) : ResultWord := v.zeroExtend 32

/-- `sext_32` of a 16-bit value (R144). -/
def sext16 (v : Half) : ResultWord := v.signExtend 32

/-- RESULT of READ_U8 from the bytes in BUF (R144, R161). -/
def resultU8 (b : Buf) : ResultWord := zext8 b.b0
/-- RESULT of READ_U16_BE (R144, R162). -/
def resultU16Be (b : Buf) : ResultWord := zext16 (be16 b.b0 b.b1)
/-- RESULT of READ_U16_LE (R144, R163). -/
def resultU16Le (b : Buf) : ResultWord := zext16 (le16 b.b0 b.b1)
/-- RESULT of READ_S16_BE (R144, R164). -/
def resultS16Be (b : Buf) : ResultWord := sext16 (be16 b.b0 b.b1)
/-- RESULT of READ_S16_LE (R144, R165): swap first, then extend the sign. -/
def resultS16Le (b : Buf) : ResultWord := sext16 (le16 b.b0 b.b1)

/-- The frame of an 8-bit register write, `[reg, d0]` (R180 to R182). -/
def frame8 (reg : RegAddr) (data : Byte) : List Byte := [reg, data]
/-- The frame of a 16-bit big-endian register write (R183, R185). -/
def frameBe (reg : RegAddr) (data : Half) : List Byte := reg :: be16Bytes data
/-- The frame of a 16-bit little-endian register write: swap, then the big-endian writer (R184, R186). -/
def frameLe (reg : RegAddr) (data : Half) : List Byte := reg :: le16Bytes data

/-- BUF with its first bytes taken from a sequence, BUF[0] from index 0 (R23, R28). -/
def Buf.fill (b : Buf) (bytes : List Byte) : Buf :=
  ⟨bytes.getD 0 b.b0, bytes.getD 1 b.b1, bytes.getD 2 b.b2⟩

/-- The 16-bit count of a byte sequence's bytes (R222, `length`). -/
def byteCount (bytes : List Byte) : Len := BitVec.ofNat 16 bytes.length

end Sys2Proof.Machine
end

