-- ==== Sys2Proof/Machine/Ops.lean ====
section
/-! DEFINITION. The sequencer's named operations: what its steps do to the state (spec/10_state.md R28), the one operation
that ends a command with an error (spec/60_exceptions.md R211), the acceptance check (R208), waiting for replies
(spec/20_memory.md R56 to R61), the settle timer (R218), reset (spec/70_reset_and_hazards.md R240), and finding the command
in flight. -/

namespace Sys2Proof.Machine

/-- How a step of this machine ends. -/
abbrev Out := Host.Outcome State Fault Refusal

/-! ### What steps write -/

/-- Something leaves the block. -/
def State.emit (s : State) (o : Output) : State := { s with outputs := s.outputs ++ [o] }

/-- `CMDREG <- word`: the operands are sampled once, at acceptance (R21). -/
def State.latch (s : State) (w : CmdWord) : State := { s with cmdreg := w }

/-- A request goes out and the sequencer waits for its reply in phase `p` (R28). -/
def State.issue (s : State) (r : Request) (p : Phase) : State :=
  { s with pending := some r, phase := p, outputs := s.outputs ++ [.request r] }

/-- The bytes of a frame, a select byte or a read go into BUF (R23); the other bytes stay (log entry 16). -/
def State.fillBuf (s : State) (bytes : List Byte) : State := { s with buf := s.buf.fill bytes }

/-- `Trace(ev)` for a transport write or read that succeeded (`ok`) or failed: emitted on success, and on failure only under
`TRACE_ON_ERROR` (R223; log entry 14). -/
def State.trace (s : State) (ok : Bool) (e : TraceEvent) : State :=
  if ok || Config.traceOnError then s.emit (.trace e) else s

/-- `respond(status, count, result, data)`: the one response, and `PHASE <- IDLE` (R90). -/
def State.respond (s : State) (st : Status) (count : Len) (result : ResultWord) (data : List Byte) : State :=
  { s with phase := .idle, outputs := s.outputs ++ [.response ⟨responseWord st count result, data⟩] }

/-- BUF becomes unspecified: three free values (R23, R41). -/
def State.forgetBuf (s : State) : State :=
  { s with
    buf := ⟨Config.freeByte s.freeIx 0, Config.freeByte s.freeIx 1, Config.freeByte s.freeIx 2⟩
    freeIx := s.freeIx + 1 }

/-- Taking an exception (R211), the one way a command ends with STATUS other than OK: the response goes out, PHASE goes to
IDLE, nothing is saved and control goes nowhere. After a TransferError BUF is unspecified (R23; log entry 6). -/
def State.raise (s : State) (st : Status) (count : Len) (info : Info) (data : List Byte) : State :=
  match st with
  | .transferError => s.forgetBuf.respond st count info data
  | _ => s.respond st count info data

/-! ### Acceptance -/

/-- How the acceptance check treats a legal command (R208): BIND, the two accessors, every other command. -/
inductive Admission where
  | construct | accessor | channel
  deriving DecidableEq, Repr

/-- Lines 2 to 4 of `check` (R208): the fault the lifecycle state gives a legal command, if any. -/
def lifecycleFault : Admission → Lifecycle → Option (Status × Info)
  | .construct, .unbound => none
  | .construct, .opened => some (.illegalCommand, Subcode.alreadyBound.code)
  | .construct, .closed => some (.channelClosed, 0)
  | .accessor, .unbound => some (.illegalCommand, Subcode.noChannel.code)
  | .accessor, .opened => none
  | .accessor, .closed => none
  | .channel, .unbound => some (.illegalCommand, Subcode.noChannel.code)
  | .channel, .opened => none
  | .channel, .closed => some (.channelClosed, 0)

/-- A legal command at the command port: rejected with the check's response and no other effect (S1, R207), or accepted. -/
def State.accept (s : State) (a : Admission) (go : State → State) : Out :=
  match lifecycleFault a s.lifecycle with
  | some (st, info) => .next (s.raise st 0 info [])
  | none => .next (go s)

/-- A word that names no command: `IllegalCommand` with the decoder's subcode and no other effect (S1, R89, R207). -/
def State.rejectIllegal (s : State) (sub : Subcode) : State := s.raise .illegalCommand 0 sub.code []

/-! ### Waiting for a reply -/

/-- The events that answer a request. -/
def Event.isReply : Event → Bool
  | .bindReply _ _ | .writeReply _ _ _ | .readReply _ _ _ _ | .releaseReply _ _ => true
  | .present _ | .reset | .tick => false

/-- A reply is consumed and its request is no longer outstanding (R55). -/
def State.takeReply (s : State) (rest : List Event) : State := { s with events := rest, pending := none }

/-- A `_WAIT` phase: the arriving reply is consumed and handed to `k`. Where none has arrived the sequencer waits, for ever
if need be (R30; log entry 10); what else arrives is not this command's (`State.ambient`). -/
def State.awaitReply (s : State) (k : Event → State → Out) : Out :=
  match s.events with
  | [] => .next s
  | e :: rest => if e.isReply then k e (s.takeReply rest) else .next s

/-- The bind reply (R61, S4). -/
def State.awaitBind (s : State) (onOk : State → State) (onErr : Info → State → State) : Out :=
  s.awaitReply fun e t =>
    match e with
    | .bindReply false _ => .next (onOk t)
    | .bindReply true info => .next (onErr info t)
    | _ => .refused .replyNotAwaited

/-- The release reply (R58, S6). -/
def State.awaitRelease (s : State) (onOk : State → State) (onErr : Info → State → State) : Out :=
  s.awaitReply fun e t =>
    match e with
    | .releaseReply false _ => .next (onOk t)
    | .releaseReply true info => .next (onErr info t)
    | _ => .refused .replyNotAwaited

/-- The reply to `TWrite` of `n` bytes (R56). A reply with `err = 0` has `count = n`, or there is no step for it (R59). -/
def State.awaitWrite (s : State) (n : Nat) (onOk : Len → State → State) (onErr : Len → Info → State → State) : Out :=
  s.awaitReply fun e t =>
    match e with
    | .writeReply false _ count =>
      if count.toNat = n then .next (onOk count t) else .refused .brokenTransportContract
    | .writeReply true info count => .next (onErr count info t)
    | _ => .refused .replyNotAwaited

/-- The reply to `TRead(n)` (R57). A reply with `err = 0` has `count = n = len(data)`, or there is no step for it (R59). The
data of a reply with `err = 1` is not to be trusted and goes nowhere. -/
def State.awaitRead (s : State) (n : Nat) (onOk : Len → List Byte → State → State)
    (onErr : Len → Info → State → State) : Out :=
  s.awaitReply fun e t =>
    match e with
    | .readReply false _ count data =>
      if count.toNat = n ∧ data.length = n then .next (onOk count data t) else .refused .brokenTransportContract
    | .readReply true info count _ => .next (onErr count info t)
    | _ => .refused .replyNotAwaited

/-! ### The settle timer -/

/-- `TMR <- d` and phase SETTLE (S8, R218). -/
def State.startSettle (s : State) (d : Ticks) : State := { s with tmr := d, phase := .settle }

/-- One tick while TMR is not 0: `TMR <- TMR - 1` (S9, R218). -/
def State.countDown (s : State) (rest : List Event) : State := { s with events := rest, tmr := s.tmr - 1 }

/-- Phase SETTLE: at TMR = 0 the read of `n` bytes is requested, with no event consumed (S10); else a tick counts down (S9).
A reply finds no request outstanding (R28; log entry 9). -/
def State.settleStep (s : State) (n : Len) : Out :=
  if s.tmr = 0 then .next (s.issue (.read n) .dataWait)
  else
    match s.events with
    | .tick :: rest => .next (s.countDown rest)
    | [] => .next s
    | e :: _ => if e.isReply then .refused .replyNotAwaited else .next s

/-! ### The two register protocols -/

/-- `MemRead(reg, n, delay)` and its response (R160): steps S7 to S10 and S13 of a register read whose word is `w`. `conv` is
the converter's function of the bytes read, which stand in BUF (R23, R144). -/
def State.registerRead (s : State) (w : CmdWord) (reg : RegAddr) (n : Len) (delay : Ticks)
    (conv : Buf → ResultWord) : Out :=
  match s.phase with
  | .idle => s.accept .channel fun t => ((t.latch w).fillBuf [reg]).issue (.write [reg]) .selectWait
  | .selectWait =>
    s.awaitWrite 1
      (fun _ t => (t.trace true ⟨.write, 1, [reg], none⟩).startSettle delay)
      (fun _ info t => (t.trace false ⟨.write, 1, [reg], none⟩).raise .transferError 0 info [])
  | .settle => s.settleStep n
  | .dataWait =>
    s.awaitRead n.toNat
      (fun count data t =>
        let u := (t.fillBuf data).trace true ⟨.read, count, data, some delay⟩
        u.respond .ok 0 (conv u.buf) [])
      (fun count info t => (t.trace false ⟨.read, count, [], some delay⟩).raise .transferError 0 info [])
  | .bindWait | .releaseWait => .fault .phaseNotOfCommand

/-- `MemWrite` and its response (R180): steps S11 and S13 of a register write whose word is `w`. -/
def State.registerWrite (s : State) (w : CmdWord) (frame : List Byte) : Out :=
  match s.phase with
  | .idle => s.accept .channel fun t => ((t.latch w).fillBuf frame).issue (.write frame) .dataWait
  | .dataWait =>
    s.awaitWrite frame.length
      (fun _ t => (t.trace true ⟨.write, byteCount frame, frame, none⟩).respond .ok 0 0 [])
      (fun _ info t => (t.trace false ⟨.write, byteCount frame, frame, none⟩).raise .transferError 0 info [])
  | .bindWait | .selectWait | .settle | .releaseWait => .fault .phaseNotOfCommand

/-! ### What is no command's step -/

/-- The reset input (R240, R241, R242): every element at its reset value, CMDREG and BUF unspecified (free values), the
command in flight abandoned with no response and no request made. Its outstanding request is not recalled (log entry 21). The
commands at the port and the events still to come lie outside the block and stay (log entry 17). -/
def State.resetInput (s : State) (rest : List Event) : State :=
  { State.reset with
    cmdreg := Config.freeCmdWord s.freeIx
    buf := ⟨Config.freeByte s.freeIx 0, Config.freeByte s.freeIx 1, Config.freeByte s.freeIx 2⟩
    abandoned := s.abandoned ++ s.pending.toList
    port := s.port
    events := rest
    outputs := s.outputs
    freeIx := s.freeIx + 1 }

/-- A presented command waits at the command port, outside the block (R246). -/
def State.enqueue (s : State) (c : Command) (rest : List Event) : State :=
  { s with port := s.port ++ [c], events := rest }

/-- A tick outside SETTLE changes nothing (R28). -/
def State.discard (s : State) (rest : List Event) : State := { s with events := rest }

/-- The kind of reply a request gets (R56, R57, R58, R61), whatever the reply says. -/
def Request.repliedBy : Request → Event → Bool
  | .bind _ _, .bindReply _ _ => true
  | .write _, .writeReply _ _ _ => true
  | .read _, .readReply _ _ _ _ => true
  | .release, .releaseReply _ _ => true
  | _, _ => false

/-- Whether an event is the late reply to a request that a reset abandoned (R241; log entry 21). -/
def State.isLate (s : State) (e : Event) : Bool := s.abandoned.any (·.repliedBy e)

/-- A reply that finds PHASE = IDLE is discarded (R241, U15); an abandoned request it answers is then answered. -/
def State.discardReply (s : State) (e : Event) (rest : List Event) : State :=
  { s with events := rest, abandoned := s.abandoned.eraseP (·.repliedBy e) }

/-- The events that no command's own step consumes, and what they do, in the order the model takes them (log entry 2): reset,
in every phase; a command presented; a tick outside SETTLE; in IDLE, a reply. A command already at the port in IDLE goes
before all of them but a reset and the late reply to an abandoned request, which still finds PHASE = IDLE (R241). -/
def State.ambient (s : State) : Option State :=
  match s.events with
  | [] => none
  | .reset :: rest => some (s.resetInput rest)
  | e :: rest =>
    if s.phase = .idle ∧ s.port ≠ [] ∧ s.isLate e = false then none
    else
      match e with
      | .present c => some (s.enqueue c rest)
      | .tick => if s.phase = .settle then none else some (s.discard rest)
      | _ => if s.phase = .idle then some (s.discardReply e rest) else none

/-- The payload of the command in flight: the block does not store it (R22); it is in the outstanding `TWrite` request. -/
def State.payloadInFlight (s : State) : List Byte :=
  if opField s.cmdreg = Op.writeBytes.code then
    match s.pending with
    | some (.write bytes) => bytes
    | _ => []
  else []

/-- The command in flight: the one whose word CMDREG holds (R21; log entry 11). -/
def State.inFlight (s : State) : Option Instr :=
  match decode s.cmdreg s.payloadInFlight with
  | .command i => some i
  | .illegal _ => none

end Sys2Proof.Machine
end

