-- ==== Sys2Proof/Machine/Lifecycle.lean ====
section
/-! DEFINITION. BIND, CLOSE, GET_BUS, GET_ADDR (spec/40_lifecycle.md). -/

namespace Sys2Proof.Machine

/-- A successful bind: `STATE <- Open`, `BUS <- BBUS`, `ADDR <- BADDR` (R111, S4). -/
def State.bindTo (s : State) (addr : DevAddr) (bus : BusId) : State :=
  { s with lifecycle := .opened, bus := bus, addr := addr }

/-- `STATE <- Closed`; BUS and ADDR keep their values (R113, S6). -/
def State.closeChannel (s : State) : State := { s with lifecycle := .closed }

/-- BIND (R111): steps S3 and S4. -/
def execBind (addr : DevAddr) (bus : BusId) (s : State) : Out :=
  match s.phase with
  | .idle => s.accept .construct fun t => (t.latch (Instr.bind addr bus).word).issue (.bind bus addr) .bindWait
  | .bindWait =>
    s.awaitBind
      (fun t => (t.bindTo addr bus).respond .ok 0 0 [])
      (fun info t => t.raise .bindError 0 info [])
  | .selectWait | .settle | .dataWait | .releaseWait => .fault .phaseNotOfCommand

/-- CLOSE (R113): steps S5 and S6; Closed whatever the reply. -/
def execClose (s : State) : Out :=
  match s.phase with
  | .idle => s.accept .channel fun t => (t.latch Instr.close.word).issue .release .releaseWait
  | .releaseWait =>
    s.awaitRelease
      (fun t => t.closeChannel.respond .ok 0 0 [])
      (fun info t => t.closeChannel.raise .transferError 0 info [])
  | .bindWait | .selectWait | .settle | .dataWait => .fault .phaseNotOfCommand

/-- GET_BUS (R115): answered in the accepting step, S2. -/
def execGetBus (s : State) : Out :=
  match s.phase with
  | .idle => s.accept .accessor fun t => t.respond .ok 0 t.bus []
  | .bindWait | .selectWait | .settle | .dataWait | .releaseWait => .fault .phaseNotOfCommand

/-- GET_ADDR (R117): answered in the accepting step, S2. -/
def execGetAddr (s : State) : Out :=
  match s.phase with
  | .idle => s.accept .accessor fun t => t.respond .ok 0 (t.addr.zeroExtend 32) []
  | .bindWait | .selectWait | .settle | .dataWait | .releaseWait => .fault .phaseNotOfCommand

end Sys2Proof.Machine
end

