-- ==== Sys2Proof/Machine/Raw.lean ====
section
/-! DEFINITION. WRITE_BYTES, READ_BYTES (spec/41_raw_transfer.md). -/

namespace Sys2Proof.Machine

/-- WRITE_BYTES (R130): steps S11 and S13. The payload goes out verbatim (R131) and is not stored (R22). -/
def execWriteBytes (len : Len) (payload : List Byte) (s : State) : Out :=
  match s.phase with
  | .idle =>
    s.accept .channel fun t => (t.latch (Instr.writeBytes len payload).word).issue (.write payload) .dataWait
  | .dataWait =>
    s.awaitWrite payload.length
      (fun count t => (t.trace true ⟨.write, byteCount payload, payload, none⟩).respond .ok count 0 [])
      (fun count info t =>
        (t.trace false ⟨.write, byteCount payload, payload, none⟩).raise .transferError count info [])
  | .bindWait | .selectWait | .settle | .releaseWait => .fault .phaseNotOfCommand

/-- READ_BYTES (R132): steps S12 and S13. On failure COUNT is the reply's count and the data is unspecified, at most LEN bytes
(R91): a free value (log entry 7). -/
def execReadBytes (len : Len) (s : State) : Out :=
  match s.phase with
  | .idle => s.accept .channel fun t => (t.latch (Instr.readBytes len).word).issue (.read len) .dataWait
  | .dataWait =>
    s.awaitRead len.toNat
      (fun count data t => (t.trace true ⟨.read, count, data, none⟩).respond .ok count 0 data)
      (fun count info t =>
        (t.trace false ⟨.read, count, [], none⟩).raise .transferError count info
          ((Config.freeData t.freeIx).take len.toNat))
  | .bindWait | .selectWait | .settle | .releaseWait => .fault .phaseNotOfCommand

end Sys2Proof.Machine
end

