-- ==== Sys2Proof/Machine/RegisterRead.lean ====
section
/-! DEFINITION. The five register reads (spec/43_register_read.md): one protocol, five conversions. -/

namespace Sys2Proof.Machine

/-- READ_U8 (R161): one byte is requested. -/
def execReadU8 (reg : RegAddr) (delay : Ticks) (s : State) : Out :=
  s.registerRead (Instr.readU8 reg delay).word reg 1 delay resultU8

/-- READ_U16_BE (R162). -/
def execReadU16Be (reg : RegAddr) (delay : Ticks) (s : State) : Out :=
  s.registerRead (Instr.readU16Be reg delay).word reg 2 delay resultU16Be

/-- READ_U16_LE (R163): the requests of READ_U16_BE. -/
def execReadU16Le (reg : RegAddr) (delay : Ticks) (s : State) : Out :=
  s.registerRead (Instr.readU16Le reg delay).word reg 2 delay resultU16Le

/-- READ_S16_BE (R164). -/
def execReadS16Be (reg : RegAddr) (delay : Ticks) (s : State) : Out :=
  s.registerRead (Instr.readS16Be reg delay).word reg 2 delay resultS16Be

/-- READ_S16_LE (R165). -/
def execReadS16Le (reg : RegAddr) (delay : Ticks) (s : State) : Out :=
  s.registerRead (Instr.readS16Le reg delay).word reg 2 delay resultS16Le

end Sys2Proof.Machine
end

