-- ==== Sys2Proof/Machine/RegisterWrite.lean ====
section
/-! DEFINITION. The six register writes (spec/44_register_write.md): one protocol, two frames for each width. -/

namespace Sys2Proof.Machine

/-- WRITE_U8 (R181). -/
def execWriteU8 (reg : RegAddr) (data : Byte) (s : State) : Out :=
  s.registerWrite (Instr.writeU8 reg data).word (frame8 reg data)

/-- WRITE_S8 (R182): the block does nothing with the sign. -/
def execWriteS8 (reg : RegAddr) (data : Byte) (s : State) : Out :=
  s.registerWrite (Instr.writeS8 reg data).word (frame8 reg data)

/-- WRITE_U16_BE (R183). -/
def execWriteU16Be (reg : RegAddr) (data : Half) (s : State) : Out :=
  s.registerWrite (Instr.writeU16Be reg data).word (frameBe reg data)

/-- WRITE_U16_LE (R184). -/
def execWriteU16Le (reg : RegAddr) (data : Half) (s : State) : Out :=
  s.registerWrite (Instr.writeU16Le reg data).word (frameLe reg data)

/-- WRITE_S16_BE (R185). -/
def execWriteS16Be (reg : RegAddr) (data : Half) (s : State) : Out :=
  s.registerWrite (Instr.writeS16Be reg data).word (frameBe reg data)

/-- WRITE_S16_LE (R186): the swap acts on the 16-bit pattern. -/
def execWriteS16Le (reg : RegAddr) (data : Half) (s : State) : Out :=
  s.registerWrite (Instr.writeS16Le reg data).word (frameLe reg data)

end Sys2Proof.Machine
end

