-- ==== Sys2Proof/Machine/Dispatch.lean ====
section
/-! DEFINITION. The sequencer's own step for a command, one arm per row of spec/opcode_table.json. -/

namespace Sys2Proof.Machine

/-- The step of the sequencer for command `i` in the phase `s` is in (spec/10_state.md R28): acceptance in IDLE, then the
command's reply, tick and settle steps. -/
def exec (i : Instr) (s : State) : Host.Outcome State Fault Refusal :=
  match i with
  | .bind addr bus => Sys2Proof.Machine.execBind addr bus s
  | .close => Sys2Proof.Machine.execClose s
  | .getBus => Sys2Proof.Machine.execGetBus s
  | .getAddr => Sys2Proof.Machine.execGetAddr s
  | .writeBytes len payload => Sys2Proof.Machine.execWriteBytes len payload s
  | .readBytes len => Sys2Proof.Machine.execReadBytes len s
  | .readU8 reg delay => Sys2Proof.Machine.execReadU8 reg delay s
  | .readU16Be reg delay => Sys2Proof.Machine.execReadU16Be reg delay s
  | .readU16Le reg delay => Sys2Proof.Machine.execReadU16Le reg delay s
  | .readS16Be reg delay => Sys2Proof.Machine.execReadS16Be reg delay s
  | .readS16Le reg delay => Sys2Proof.Machine.execReadS16Le reg delay s
  | .writeU8 reg data => Sys2Proof.Machine.execWriteU8 reg data s
  | .writeS8 reg data => Sys2Proof.Machine.execWriteS8 reg data s
  | .writeU16Be reg data => Sys2Proof.Machine.execWriteU16Be reg data s
  | .writeU16Le reg data => Sys2Proof.Machine.execWriteU16Le reg data s
  | .writeS16Be reg data => Sys2Proof.Machine.execWriteS16Be reg data s
  | .writeS16Le reg data => Sys2Proof.Machine.execWriteS16Le reg data s

end Sys2Proof.Machine
end

