-- ==== Sys2Proof/Machine/Step.lean ====
section
/-! DEFINITION. One step of the machine (spec/10_state.md R28): what is no command's step, else the step of the command at
the port (IDLE) or in flight. -/

namespace Sys2Proof.Machine

/-- One step. In IDLE the first command at the port is taken and decoded: a word that names no command is rejected (S1), any
other runs `exec`. While a command is in flight `exec` runs the one CMDREG holds. With nothing to consume in IDLE the block
waits (R243). -/
def step (s : State) : Host.Outcome State Fault Refusal :=
  match s.ambient with
  | some t => .next t
  | none =>
    match s.phase with
    | .idle =>
      match s.port with
      | [] => .next s
      | c :: rest =>
        match decode c.word c.payload with
        | .command i => exec i { s with port := rest }
        | .illegal sub => .next ({ s with port := rest }.rejectIllegal sub)
    | .bindWait | .selectWait | .settle | .dataWait | .releaseWait =>
      match s.inFlight with
      | some i => exec i s
      | none => .fault .noCommandInFlight

/-- `s` with a table word as the first command at the port, so that the very next step takes it: the sequencer is in IDLE and
no reset or late reply is about to arrive. It stands for the host presenting the command (log entry 3). -/
def State.withFetchWord (s : State) (nbits w : Nat) : State :=
  { s with
    phase := .idle
    port := tableCommand nbits w :: s.port
    events := s.events.dropWhile fun e => e == .reset || s.isLate e }

end Sys2Proof.Machine
end

