-- ==== Sys2Proof/Machine/Assembler.lean ====
section
/-! DEFINITION. The assembler forms and pseudo-forms of spec/30_encoding.md R94 and R95: numbers in, a command out, or
nothing where a number is outside its range ("no word exists for it"). Reading text is left out (log entry 20). -/

namespace Sys2Proof.Machine

/-- A line of assembler (R94). A read's delay may be left out (R95). -/
inductive AsmLine where
  | bind (addr bus : Int)
  | close
  | getBus
  | getAddr
  | writeBytes (bytes : List Int)
  | readBytes (n : Int)
  | readU8 (reg : Int) (delay : Option Int)
  | readU16Be (reg : Int) (delay : Option Int)
  | readU16Le (reg : Int) (delay : Option Int)
  | readS16Be (reg : Int) (delay : Option Int)
  | readS16Le (reg : Int) (delay : Option Int)
  | writeU8 (reg value : Int)
  | writeS8 (reg value : Int)
  | writeU16Be (reg value : Int)
  | writeU16Le (reg value : Int)
  | writeS16Be (reg value : Int)
  | writeS16Le (reg value : Int)
  deriving DecidableEq, Repr

/-- A value of 0 to 2^w - 1, in `w` bits. -/
def unsignedOperand (w : Nat) (v : Int) : Option (BitVec w) :=
  if 0 ≤ v ∧ v < 2 ^ w then some (BitVec.ofInt w v) else none

/-- A value of -2^(w-1) to 2^(w-1) - 1, as its two's complement in `w` bits. -/
def signedOperand (w : Nat) (v : Int) : Option (BitVec w) :=
  if -2 ^ (w - 1) ≤ v ∧ v < 2 ^ (w - 1) then some (BitVec.ofInt w v) else none

/-- A read's operands; a delay left out is 0 (R95). -/
def readOperands (reg : Int) (delay : Option Int) (mk : RegAddr → Ticks → Instr) : Option Instr :=
  match unsignedOperand 8 reg, unsignedOperand 32 (delay.getD 0) with
  | some r, some d => some (mk r d)
  | _, _ => none

/-- A write's operands. -/
def writeOperands {w : Nat} (reg : Int) (value : Option (BitVec w)) (mk : RegAddr → BitVec w → Instr) : Option Instr :=
  match unsignedOperand 8 reg, value with
  | some r, some v => some (mk r v)
  | _, _ => none

/-- The bytes of a WRITE_BYTES line, each 0 to 255. -/
def byteOperands : List Int → Option (List Byte)
  | [] => some []
  | v :: rest =>
    match unsignedOperand 8 v, byteOperands rest with
    | some b, some bs => some (b :: bs)
    | _, _ => none

/-- The command of a line (R94). LEN is the number of bytes listed, at most 65535. -/
def assemble : AsmLine → Option Instr
  | .bind addr bus =>
    match unsignedOperand 7 addr, unsignedOperand 32 bus with
    | some a, some b => some (.bind a b)
    | _, _ => none
  | .close => some .close
  | .getBus => some .getBus
  | .getAddr => some .getAddr
  | .writeBytes bytes =>
    match byteOperands bytes, unsignedOperand 16 bytes.length with
    | some bs, some len => some (.writeBytes len bs)
    | _, _ => none
  | .readBytes n => (unsignedOperand 16 n).map .readBytes
  | .readU8 reg delay => readOperands reg delay .readU8
  | .readU16Be reg delay => readOperands reg delay .readU16Be
  | .readU16Le reg delay => readOperands reg delay .readU16Le
  | .readS16Be reg delay => readOperands reg delay .readS16Be
  | .readS16Le reg delay => readOperands reg delay .readS16Le
  | .writeU8 reg value => writeOperands reg (unsignedOperand 8 value) .writeU8
  | .writeS8 reg value => writeOperands reg (signedOperand 8 value) .writeS8
  | .writeU16Be reg value => writeOperands reg (unsignedOperand 16 value) .writeU16Be
  | .writeU16Le reg value => writeOperands reg (unsignedOperand 16 value) .writeU16Le
  | .writeS16Be reg value => writeOperands reg (signedOperand 16 value) .writeS16Be
  | .writeS16Le reg value => writeOperands reg (signedOperand 16 value) .writeS16Le

end Sys2Proof.Machine
end

