-- ==== Sys2Proof/Machine/Memory.lean ====
section
/-! DEFINITION. A byte memory as a canonical list of cells: what holds the Reference Device's registers (spec/20_memory.md
R73). The block itself has no memory, so State holds none. -/

namespace Sys2Proof.Machine

/-- Cells with rising addresses, none of them holding 0: an unlisted address reads as 0 (log entry 19). -/
abbrev Memory := List Host.Cell

/-- The byte at an address. -/
def Memory.read : Memory → Nat → Byte
  | [], _ => 0
  | (k, v) :: rest, a => if a = k then v else Memory.read rest a

/-- The memory with one byte written; a zero removes the cell, so that the form stays canonical. -/
def Memory.write : Memory → Nat → Byte → Memory
  | [], a, b => if b = 0 then [] else [(a, b)]
  | (k, v) :: rest, a, b =>
    if a < k then
      if b = 0 then (k, v) :: rest else (a, b) :: (k, v) :: rest
    else if a = k then
      if b = 0 then rest else (a, b) :: rest
    else (k, v) :: Memory.write rest a b

/-- Every address is at least `lo`, addresses rise strictly, no cell holds 0. -/
def Memory.wfFrom : Nat → Memory → Bool
  | _, [] => true
  | lo, (k, v) :: rest => decide (lo ≤ k) && v != 0 && Memory.wfFrom (k + 1) rest

/-- The canonical form. -/
def Memory.wf (m : Memory) : Bool := Memory.wfFrom 0 m

end Sys2Proof.Machine
end

