-- ==== Sys2Proof/Machine/RefDevice.lean ====
section
/-! DEFINITION. The Reference Device of spec/20_memory.md R73: a fixture, one device and transport that can answer the
block's requests. It is not part of the block and says nothing about a real device. -/

namespace Sys2Proof.Machine

/-- Its state: registers `M[0..255]`, the pointer `P`, and the four switches that make requests fail. -/
structure RefDevice where
  mem : Memory
  ptr : Byte
  failW : Bool
  failR : Bool
  failB : Bool
  failC : Bool
  deriving DecidableEq, Repr

/-- `M[(P + k) mod 256]`. -/
def RefDevice.peek (d : RefDevice) (k : Nat) : Byte := d.mem.read ((d.ptr.toNat + k) % 256)

/-- `M[(p + k) mod 256] <- bytes[0]`, `M[(p + k + 1) mod 256] <- bytes[1]`, and so on. -/
def storeFrom (m : Memory) (p : Byte) (k : Nat) : List Byte → Memory
  | [] => m
  | b :: rest => storeFrom (m.write ((p.toNat + k) % 256) b) p (k + 1) rest

/-- `data[i] = M[(P + i) mod 256]` for `i` from `k`, `n` bytes. -/
def RefDevice.fetchFrom (d : RefDevice) (k : Nat) : Nat → List Byte
  | 0 => []
  | n + 1 => d.peek k :: d.fetchFrom (k + 1) n

/-- What a write that does not fail does: the first byte sets `P`, the others are stored from there; an empty write changes
nothing. -/
def RefDevice.store (d : RefDevice) : List Byte → RefDevice
  | [] => d
  | p :: data => { d with ptr := p, mem := storeFrom d.mem p 0 data }

/-- The device after a request, and its reply (R73). -/
def RefDevice.answer (d : RefDevice) : Request → RefDevice × Event
  | .bind _ _ => (d, if d.failB then .bindReply true 0xB1D0B1D0 else .bindReply false 0)
  | .write bytes =>
    if d.failW then (d, .writeReply true 0xEEEE0001 0) else (d.store bytes, .writeReply false 0 (byteCount bytes))
  | .read n =>
    if d.failR then (d, .readReply true 0xEEEE0002 0 []) else (d, .readReply false 0 n (d.fetchFrom 0 n.toNat))
  | .release => (d, if d.failC then .releaseReply true 0xEEEE0003 else .releaseReply false 0)

end Sys2Proof.Machine
end

