-- ==== Sys2Proof/Safety.lean ====
section
/-! DEFINITION. The terms in which claims about runs are stated: the invariants of spec/10_state.md R38, what stands behind
a command in flight (R28, R29), and what the collaborators owe the block (spec/20_memory.md R55, R59). -/

namespace Sys2Proof.Machine

/-- The four `_WAIT` phases (R27). -/
def Phase.waits : Phase → Bool
  | .bindWait | .selectWait | .dataWait | .releaseWait => true
  | .idle | .settle => false

/-- Items 1 to 5 of R38. -/
def State.Inv (s : State) : Prop :=
  (s.phase = .bindWait → s.lifecycle = .unbound) ∧
  (s.phase = .selectWait ∨ s.phase = .settle ∨ s.phase = .dataWait ∨ s.phase = .releaseWait → s.lifecycle = .opened) ∧
  (s.lifecycle = .unbound → s.bus = 0 ∧ s.addr = 0) ∧
  (s.pending.isSome = s.phase.waits) ∧
  (s.tmr ≠ 0 → s.phase = .settle)

/-- The phases a command passes through between acceptance and response (R29). -/
def busyPhases : Instr → List Phase
  | .bind _ _ => [.bindWait]
  | .close => [.releaseWait]
  | .getBus | .getAddr => []
  | .writeBytes _ _ | .readBytes _ => [.dataWait]
  | .readU8 _ _ | .readU16Be _ _ | .readU16Le _ _ | .readS16Be _ _ | .readS16Le _ _ => [.selectWait, .settle, .dataWait]
  | .writeU8 _ _ | .writeS8 _ _ => [.dataWait]
  | .writeU16Be _ _ | .writeU16Le _ _ | .writeS16Be _ _ | .writeS16Le _ _ => [.dataWait]

/-- The request a command in a phase has outstanding (R28, R65). -/
def requestIn (i : Instr) (p : Phase) : Option Request :=
  match i, p with
  | .bind addr bus, .bindWait => some (.bind bus addr)
  | .close, .releaseWait => some .release
  | .writeBytes _ payload, .dataWait => some (.write payload)
  | .readBytes len, .dataWait => some (.read len)
  | .readU8 reg _, .selectWait | .readU16Be reg _, .selectWait | .readU16Le reg _, .selectWait
  | .readS16Be reg _, .selectWait | .readS16Le reg _, .selectWait => some (.write [reg])
  | .readU8 _ _, .dataWait => some (.read 1)
  | .readU16Be _ _, .dataWait | .readU16Le _ _, .dataWait
  | .readS16Be _ _, .dataWait | .readS16Le _ _, .dataWait => some (.read 2)
  | .writeU8 reg v, .dataWait | .writeS8 reg v, .dataWait => some (.write (frame8 reg v))
  | .writeU16Be reg v, .dataWait | .writeS16Be reg v, .dataWait => some (.write (frameBe reg v))
  | .writeU16Le reg v, .dataWait | .writeS16Le reg v, .dataWait => some (.write (frameLe reg v))
  | _, _ => none

/-- While a command is in flight CMDREG holds it, the phase is one of its phases, and what is outstanding is its request for
that phase (R21, R28, R29). -/
def State.CommandHeld (s : State) : Prop :=
  s.phase = .idle ∨
    ∃ i, s.inFlight = some i ∧ s.phase ∈ busyPhases i ∧ s.pending = requestIn i s.phase

/-- Whether an event is a reply that answers a request within the contracts of R55 and R59. -/
def Request.answeredBy : Request → Event → Bool
  | .bind _ _, .bindReply _ _ => true
  | .write bytes, .writeReply err _ count => err || count.toNat == bytes.length
  | .read n, .readReply err _ count data => err || (count == n && data.length == n.toNat)
  | .release, .releaseReply _ _ => true
  | _, _ => false

/-- The collaborators keep their contract at this step: a reply arrives only for the outstanding request, and within R59. In
IDLE any reply may arrive (R241). At the end of SETTLE the arriving event is not looked at (S10). -/
def State.wellAnswered (s : State) : Bool :=
  match s.events with
  | [] => true
  | e :: _ =>
    !e.isReply || s.phase == .idle ||
      (match s.pending with
       | some r => r.answeredBy e
       | none => s.phase == .settle && s.tmr == 0)

/-- What arrives first is neither a reset nor the late reply to a request that a reset abandoned (R241): in IDLE a command at the
port goes first (log entry 2). -/
def State.portFirst (s : State) : Bool :=
  match s.events with
  | [] => true
  | e :: _ => e != .reset && !s.isLate e

/-- The responses among some outputs. -/
def responsesIn (os : List Output) : List Response :=
  os.filterMap fun o => match o with
    | .response r => some r
    | _ => none

/-- The requests among some outputs. -/
def requestsIn (os : List Output) : List Request :=
  os.filterMap fun o => match o with
    | .request r => some r
    | _ => none

/-- The trace events among some outputs. -/
def tracesIn (os : List Output) : List TraceEvent :=
  os.filterMap fun o => match o with
    | .trace e => some e
    | _ => none

/-- The responses still owed: one for the command in flight (R38 item 6). -/
def State.owed (s : State) : Nat := if s.phase = .idle then 0 else 1

/-- Every command that has been given or is about to be presented: answered, in flight, at the port, still to arrive. -/
def State.commandCount (s : State) : Nat :=
  (responsesIn s.outputs).length + s.owed + s.port.length +
    (s.events.filter fun e => match e with
      | .present _ => true
      | _ => false).length

/-- The rows of R87 as numbers: each OP byte with the `reserved_mask` R92 gives its format. -/
def opcodeRows : List (Byte × CmdWord) :=
  [(0x01, 0x00000000FFFF8000), (0x02, 0xFFFFFFFFFFFFFF00), (0x03, 0xFFFFFFFFFFFFFF00), (0x04, 0xFFFFFFFFFFFFFF00),
   (0x10, 0xFFFFFFFF0000FF00), (0x11, 0xFFFFFFFF0000FF00),
   (0x20, 0x00000000FFFF0000), (0x21, 0x00000000FFFF0000), (0x22, 0x00000000FFFF0000), (0x23, 0x00000000FFFF0000),
   (0x24, 0x00000000FFFF0000), (0x30, 0xFFFFFFFFFF000000), (0x31, 0xFFFFFFFFFF000000),
   (0x32, 0xFFFFFFFF00000000), (0x33, 0xFFFFFFFF00000000), (0x34, 0xFFFFFFFF00000000), (0x35, 0xFFFFFFFF00000000)]

/-- The five register reads at given operands, each with its length and its conversion (R170). -/
def registerReads (reg : RegAddr) (delay : Ticks) : List (Instr × Len × (Buf → ResultWord)) :=
  [(.readU8 reg delay, 1, resultU8), (.readU16Be reg delay, 2, resultU16Be), (.readU16Le reg delay, 2, resultU16Le),
   (.readS16Be reg delay, 2, resultS16Be), (.readS16Le reg delay, 2, resultS16Le)]

/-- The six register writes at given operands, each with its wire bytes (R190) and the BUF they leave over `old` (R23, S11): `b`
for the byte writes, which leave the third byte as it was, `v` for the others. -/
def registerWrites (reg : RegAddr) (b : Byte) (v : Half) (old : Buf) : List (Instr × List Byte × Buf) :=
  [(.writeU8 reg b, [reg, b], ⟨reg, b, old.b2⟩), (.writeS8 reg b, [reg, b], ⟨reg, b, old.b2⟩),
   (.writeU16Be reg v, [reg, v.extractLsb' 8 8, v.extractLsb' 0 8], ⟨reg, v.extractLsb' 8 8, v.extractLsb' 0 8⟩),
   (.writeU16Le reg v, [reg, v.extractLsb' 0 8, v.extractLsb' 8 8], ⟨reg, v.extractLsb' 0 8, v.extractLsb' 8 8⟩),
   (.writeS16Be reg v, [reg, v.extractLsb' 8 8, v.extractLsb' 0 8], ⟨reg, v.extractLsb' 8 8, v.extractLsb' 0 8⟩),
   (.writeS16Le reg v, [reg, v.extractLsb' 0 8, v.extractLsb' 8 8], ⟨reg, v.extractLsb' 0 8, v.extractLsb' 8 8⟩)]

end Sys2Proof.Machine
end

