-- ==== Sys2Proof/Certificates/Slice0/Obligations.lean ====
section
/-! DEFINITION. The statements for the provers. Each docstring names the rule of spec/ it formalises. -/

open Sys2Proof Sys2Proof.Machine

/-! ### Encoding (spec/30_encoding.md) -/

/-- R92, R88: decoding the word and payload of a well-formed command gives that command back, at every operand. -/
def Obligations.DecodeEncodeRoundTrip : Prop :=
  ∀ i : Instr, i.wf = true → decode (encode i).word (encode i).payload = .command i

/-- R92, R89 ("Ignoring them would let two words mean one command", D7): a word and payload that decode to a command are that
command's own word and payload, and the command is well formed. -/
def Obligations.DecodedWordIsEncoding : Prop :=
  ∀ (w : CmdWord) (p : List Byte) (i : Instr), decode w p = .command i → i.wf = true ∧ encode i = ⟨w, p⟩

/-- R92 with the rows of R87 and the masks of R92 (`opcodeRows`): which of the four answers the decoder gives, in the order of
R89. -/
def Obligations.DecoderClassifiesEveryWord : Prop :=
  ∀ (w : CmdWord) (p : List Byte),
    ((∀ r ∈ opcodeRows, w.extractLsb' 0 8 ≠ r.1) → decode w p = .illegal .reservedOpcode) ∧
    (∀ r ∈ opcodeRows, w.extractLsb' 0 8 = r.1 →
      (w &&& r.2 ≠ 0 → decode w p = .illegal .reservedBits) ∧
      (w &&& r.2 = 0 → p.length ≠ (if r.1 = 0x10 then (w.extractLsb' 16 16).toNat else 0) →
        decode w p = .illegal .payloadMismatch) ∧
      (w &&& r.2 = 0 → p.length = (if r.1 = 0x10 then (w.extractLsb' 16 16).toNat else 0) →
        ∃ i, decode w p = .command i ∧ i.op.code = r.1 ∧ i.word = w ∧ i.payload = p))

/-- R88 with the formats of R81 to R86 and the opcodes of R87: every word as a number, each operand at its field, every
other bit 0. -/
def Obligations.CommandWordsByFields : Prop :=
  (∀ addr bus, (Instr.bind addr bus).word.toNat = 0x01 + addr.toNat * 2 ^ 8 + bus.toNat * 2 ^ 32) ∧
  (Instr.close.word.toNat = 0x02 ∧ Instr.getBus.word.toNat = 0x03 ∧ Instr.getAddr.word.toNat = 0x04) ∧
  (∀ len p, (Instr.writeBytes len p).word.toNat = 0x10 + len.toNat * 2 ^ 16) ∧
  (∀ len, (Instr.readBytes len).word.toNat = 0x11 + len.toNat * 2 ^ 16) ∧
  (∀ (reg : RegAddr) (d : Ticks),
    (Instr.readU8 reg d).word.toNat = 0x20 + reg.toNat * 2 ^ 8 + d.toNat * 2 ^ 32 ∧
    (Instr.readU16Be reg d).word.toNat = 0x21 + reg.toNat * 2 ^ 8 + d.toNat * 2 ^ 32 ∧
    (Instr.readU16Le reg d).word.toNat = 0x22 + reg.toNat * 2 ^ 8 + d.toNat * 2 ^ 32 ∧
    (Instr.readS16Be reg d).word.toNat = 0x23 + reg.toNat * 2 ^ 8 + d.toNat * 2 ^ 32 ∧
    (Instr.readS16Le reg d).word.toNat = 0x24 + reg.toNat * 2 ^ 8 + d.toNat * 2 ^ 32) ∧
  (∀ (reg : RegAddr) (b : Byte),
    (Instr.writeU8 reg b).word.toNat = 0x30 + reg.toNat * 2 ^ 8 + b.toNat * 2 ^ 16 ∧
    (Instr.writeS8 reg b).word.toNat = 0x31 + reg.toNat * 2 ^ 8 + b.toNat * 2 ^ 16) ∧
  (∀ (reg : RegAddr) (v : Half),
    (Instr.writeU16Be reg v).word.toNat = 0x32 + reg.toNat * 2 ^ 8 + v.toNat * 2 ^ 16 ∧
    (Instr.writeU16Le reg v).word.toNat = 0x33 + reg.toNat * 2 ^ 8 + v.toNat * 2 ^ 16 ∧
    (Instr.writeS16Be reg v).word.toNat = 0x34 + reg.toNat * 2 ^ 8 + v.toNat * 2 ^ 16 ∧
    (Instr.writeS16Le reg v).word.toNat = 0x35 + reg.toNat * 2 ^ 8 + v.toNat * 2 ^ 16)

/-- R94's worked encodings decode to their commands, and so does one word of each other family. -/
def Obligations.WorkedEncodingsDecode : Prop :=
  decode 0x0000000100004801 [] = .command (.bind 0x48 1) ∧
  decode 0x000003E800001021 [] = .command (.readU16Be 0x10 1000) ∧
  decode 0x0000000000FF0531 [] = .command (.writeS8 0x05 (-1)) ∧
  decode 0x0000000012342033 [] = .command (.writeU16Le 0x20 0x1234) ∧
  decode 0x0000000000030010 [0x10, 0x01, 0xF4] = .command (.writeBytes 3 [0x10, 0x01, 0xF4]) ∧
  decode 0x0000000100008001 [] = .illegal .reservedBits ∧
  decode 0x0000000000000025 [] = .illegal .reservedOpcode

/-! ### Acceptance (spec/60_exceptions.md R203 to R208) -/

/-- R89, R207 for a word that names no command: in IDLE the step takes it from the port, answers `IllegalCommand` with the
subcode, in every lifecycle state, and changes nothing else: no request, no trace event. (A reset that arrives, and a late reply
to an abandoned request, go first: log entries 2, 21.) -/
def Obligations.IllegalCommandsRejected : Prop :=
  ∀ (s : State) (c : Command) (rest : List Command) (sub : Subcode),
    s.phase = .idle → s.port = c :: rest → s.portFirst = true → decode c.word c.payload = .illegal sub →
      step s = .next { s with
        port := rest
        outputs := s.outputs ++ [.response ⟨responseWord .illegalCommand 0 sub.code, []⟩] }

/-- R203: in Closed every legal command other than the two accessors is rejected with ChannelClosed and no other effect. -/
def Obligations.ClosedChannelRejects : Prop :=
  ∀ (i : Instr) (s : State), i ≠ .getBus → i ≠ .getAddr → s.phase = .idle → s.lifecycle = .closed →
    exec i s = .next { s with outputs := s.outputs ++ [.response ⟨responseWord .channelClosed 0 0, []⟩] }

/-- R208 items 2 and 4, R204 subcodes 4 and 5: in Unbound every legal command but BIND is `IllegalCommand(NoChannel)`, in Open
BIND is `IllegalCommand(AlreadyBound)`, with no other effect. -/
def Obligations.NoChannelAndAlreadyBoundReject : Prop :=
  (∀ (i : Instr) (s : State), (∀ addr bus, i ≠ .bind addr bus) → s.phase = .idle → s.lifecycle = .unbound →
    exec i s = .next { s with outputs := s.outputs ++ [.response ⟨responseWord .illegalCommand 0 4, []⟩] }) ∧
  (∀ (addr : DevAddr) (bus : BusId) (s : State), s.phase = .idle → s.lifecycle = .opened →
    exec (.bind addr bus) s =
      .next { s with outputs := s.outputs ++ [.response ⟨responseWord .illegalCommand 0 5, []⟩] })

/-! ### Lifecycle and accessors (spec/40_lifecycle.md) -/

/-- R111: BIND. What CMDREG and BUF hold after the response is left open (U14). -/
def Obligations.BindEffect : Prop :=
  ∀ (addr : DevAddr) (bus : BusId) (s : State),
    (Instr.bind addr bus).word.toNat = 0x01 + addr.toNat * 2 ^ 8 + bus.toNat * 2 ^ 32 ∧
    (s.phase = .idle → s.lifecycle = .unbound →
      exec (.bind addr bus) s = .next { s with
        cmdreg := (Instr.bind addr bus).word
        pending := some (.bind bus addr)
        phase := .bindWait
        outputs := s.outputs ++ [.request (.bind bus addr)] }) ∧
    (s.phase = .idle → s.lifecycle = .opened →
      exec (.bind addr bus) s =
        .next { s with outputs := s.outputs ++ [.response ⟨responseWord .illegalCommand 0 5, []⟩] }) ∧
    (s.phase = .idle → s.lifecycle = .closed →
      exec (.bind addr bus) s =
        .next { s with outputs := s.outputs ++ [.response ⟨responseWord .channelClosed 0 0, []⟩] }) ∧
    (∀ info rest, s.phase = .bindWait → s.events = .bindReply false info :: rest →
      ∃ w b, exec (.bind addr bus) s = .next { s with
        lifecycle := .opened
        bus := bus
        addr := addr
        phase := .idle
        cmdreg := w
        buf := b
        pending := none
        events := rest
        outputs := s.outputs ++ [.response ⟨responseWord .ok 0 0, []⟩] }) ∧
    (∀ info rest, s.phase = .bindWait → s.events = .bindReply true info :: rest →
      ∃ w b, exec (.bind addr bus) s = .next { s with
        phase := .idle
        cmdreg := w
        buf := b
        pending := none
        events := rest
        outputs := s.outputs ++ [.response ⟨responseWord .bindError 0 info, []⟩] })

/-- R113: CLOSE. Closed whatever the reply. What CMDREG and BUF hold after the response is left open (U14, R23). -/
def Obligations.CloseEffect : Prop :=
  ∀ s : State,
    Instr.close.word.toNat = 0x02 ∧
    (s.phase = .idle → s.lifecycle = .opened →
      exec .close s = .next { s with
        cmdreg := Instr.close.word
        pending := some .release
        phase := .releaseWait
        outputs := s.outputs ++ [.request .release] }) ∧
    (s.phase = .idle → s.lifecycle = .closed →
      exec .close s = .next { s with outputs := s.outputs ++ [.response ⟨responseWord .channelClosed 0 0, []⟩] }) ∧
    (s.phase = .idle → s.lifecycle = .unbound →
      exec .close s = .next { s with outputs := s.outputs ++ [.response ⟨responseWord .illegalCommand 0 4, []⟩] }) ∧
    (∀ info rest, s.phase = .releaseWait → s.events = .releaseReply false info :: rest →
      ∃ w b, exec .close s = .next { s with
        lifecycle := .closed
        phase := .idle
        cmdreg := w
        buf := b
        pending := none
        events := rest
        outputs := s.outputs ++ [.response ⟨responseWord .ok 0 0, []⟩] }) ∧
    (∀ info rest, s.phase = .releaseWait → s.events = .releaseReply true info :: rest →
      ∃ w b n, exec .close s = .next { s with
        lifecycle := .closed
        phase := .idle
        cmdreg := w
        pending := none
        events := rest
        buf := b
        freeIx := n
        outputs := s.outputs ++ [.response ⟨responseWord .transferError 0 info, []⟩] })

/-- R115: GET_BUS is answered at once in Open and in Closed, and is `IllegalCommand(NoChannel)` in Unbound. -/
def Obligations.GetBusEffect : Prop :=
  ∀ s : State,
    Instr.getBus.word.toNat = 0x03 ∧
    (s.phase = .idle → s.lifecycle = .opened ∨ s.lifecycle = .closed →
      exec .getBus s = .next { s with outputs := s.outputs ++ [.response ⟨responseWord .ok 0 s.bus, []⟩] }) ∧
    (s.phase = .idle → s.lifecycle = .unbound →
      exec .getBus s = .next { s with outputs := s.outputs ++ [.response ⟨responseWord .illegalCommand 0 4, []⟩] })

/-- R117: GET_ADDR, as GET_BUS, with ADDR zero-extended to 32 bits. -/
def Obligations.GetAddrEffect : Prop :=
  ∀ s : State,
    Instr.getAddr.word.toNat = 0x04 ∧
    (s.phase = .idle → s.lifecycle = .opened ∨ s.lifecycle = .closed →
      ∃ r : ResultWord, r.toNat = s.addr.toNat ∧
        exec .getAddr s = .next { s with outputs := s.outputs ++ [.response ⟨responseWord .ok 0 r, []⟩] }) ∧
    (s.phase = .idle → s.lifecycle = .unbound →
      exec .getAddr s = .next { s with outputs := s.outputs ++ [.response ⟨responseWord .illegalCommand 0 4, []⟩] })

/-! ### Raw transfers (spec/41_raw_transfer.md) -/

/-- R130: WRITE_BYTES in Open: one write of the payload verbatim; on success one trace event and the reply's count; on failure
the reply's count and `info`, no event, BUF unspecified (R23). The rejections are R203's and R208's own statements.
That CMDREG and BUF keep what no rule writes is the model's choice (log entry 16). -/
def Obligations.WriteBytesEffect : Prop :=
  ∀ (len : Len) (payload : List Byte) (s : State),
    (s.phase = .idle → s.lifecycle = .opened →
      exec (.writeBytes len payload) s = .next { s with
        cmdreg := (Instr.writeBytes len payload).word
        pending := some (.write payload)
        phase := .dataWait
        outputs := s.outputs ++ [.request (.write payload)] }) ∧
    (∀ info count rest, s.phase = .dataWait → s.events = .writeReply false info count :: rest →
      count.toNat = payload.length →
      exec (.writeBytes len payload) s = .next { s with
        phase := .idle
        pending := none
        events := rest
        outputs := s.outputs ++
          [.trace ⟨.write, BitVec.ofNat 16 payload.length, payload, none⟩,
           .response ⟨responseWord .ok count 0, []⟩] }) ∧
    (∀ info count rest, s.phase = .dataWait → s.events = .writeReply true info count :: rest →
      ∃ b n, exec (.writeBytes len payload) s = .next { s with
        phase := .idle
        pending := none
        events := rest
        buf := b
        freeIx := n
        outputs := s.outputs ++ [.response ⟨responseWord .transferError count info, []⟩] })

/-- R132: READ_BYTES in Open: one read of LEN bytes; on success one trace event without delay, COUNT = LEN and the bytes; on
failure the reply's count, `info`, and data of which only its length is bounded (R91; log entry 7), BUF unspecified (R23).
That CMDREG and BUF keep what no rule writes is the model's choice (log entry 16). -/
def Obligations.ReadBytesEffect : Prop :=
  ∀ (len : Len) (s : State),
    (s.phase = .idle → s.lifecycle = .opened →
      exec (.readBytes len) s = .next { s with
        cmdreg := (Instr.readBytes len).word
        pending := some (.read len)
        phase := .dataWait
        outputs := s.outputs ++ [.request (.read len)] }) ∧
    (∀ info data rest, s.phase = .dataWait → s.events = .readReply false info len data :: rest →
      data.length = len.toNat →
      exec (.readBytes len) s = .next { s with
        phase := .idle
        pending := none
        events := rest
        outputs := s.outputs ++ [.trace ⟨.read, len, data, none⟩, .response ⟨responseWord .ok len 0, data⟩] }) ∧
    (∀ info count data rest, s.phase = .dataWait → s.events = .readReply true info count data :: rest →
      ∃ b n got, got.length ≤ len.toNat ∧ exec (.readBytes len) s = .next { s with
        phase := .idle
        pending := none
        events := rest
        buf := b
        freeIx := n
        outputs := s.outputs ++ [.response ⟨responseWord .transferError count info, got⟩] })

/-! ### Register reads (spec/43_register_read.md) -/

/-- R160 step 1, R28 steps S7 and S8: the select write of the five register reads, its success and its failure.
That CMDREG and BUF keep what no rule writes is the model's choice (log entry 16). -/
def Obligations.ReadSelectsRegister : Prop :=
  ∀ (reg : RegAddr) (delay : Ticks) (s : State), ∀ x ∈ registerReads reg delay,
    (s.phase = .idle → s.lifecycle = .opened →
      exec x.1 s = .next { s with
        cmdreg := x.1.word
        buf := ⟨reg, s.buf.b1, s.buf.b2⟩
        pending := some (.write [reg])
        phase := .selectWait
        outputs := s.outputs ++ [.request (.write [reg])] }) ∧
    (∀ info rest, s.phase = .selectWait → s.events = .writeReply false info 1 :: rest →
      exec x.1 s = .next { s with
        tmr := delay
        pending := none
        phase := .settle
        events := rest
        outputs := s.outputs ++ [.trace ⟨.write, 1, [reg], none⟩] }) ∧
    (∀ info count rest, s.phase = .selectWait → s.events = .writeReply true info count :: rest →
      ∃ b n, exec x.1 s = .next { s with
        phase := .idle
        pending := none
        events := rest
        buf := b
        freeIx := n
        outputs := s.outputs ++ [.response ⟨responseWord .transferError 0 info, []⟩] })

/-- R218, R28 steps S9 and S10: in SETTLE a tick takes one from TMR while it is not 0; at 0 the read of 1 or 2 bytes is
requested with no event consumed; with no tick the sequencer waits. -/
def Obligations.ReadSettles : Prop :=
  ∀ (reg : RegAddr) (delay : Ticks) (s : State), ∀ x ∈ registerReads reg delay, s.phase = .settle →
    (s.tmr = 0 → exec x.1 s = .next { s with
        pending := some (.read x.2.1)
        phase := .dataWait
        outputs := s.outputs ++ [.request (.read x.2.1)] }) ∧
    (∀ rest, s.tmr ≠ 0 → s.events = .tick :: rest →
      exec x.1 s = .next { s with tmr := s.tmr - 1, events := rest }) ∧
    (s.tmr ≠ 0 → s.events = [] → exec x.1 s = .next s)

/-- R161: the result of READ_U8 is the one byte read, zero-extended; the trace event carries the delay (R224).
That CMDREG and BUF keep what no rule writes is the model's choice (log entry 16). -/
def Obligations.ReadU8Result : Prop :=
  ∀ (reg : RegAddr) (delay : Ticks) (s : State) (info : Info) (b0 : Byte) (rest : List Event),
    s.phase = .dataWait → s.events = .readReply false info 1 [b0] :: rest →
      ∃ r : ResultWord, r.toNat = b0.toNat ∧
        exec (.readU8 reg delay) s = .next { s with
          phase := .idle
          pending := none
          events := rest
          buf := ⟨b0, s.buf.b1, s.buf.b2⟩
          outputs := s.outputs ++ [.trace ⟨.read, 1, [b0], some delay⟩, .response ⟨responseWord .ok 0 r, []⟩] }

/-- R170 for the word reads (R162 to R165): the value is the two bytes read, first byte high for the `_BE` commands and low
for the `_LE` commands; RESULT has its 16 bits below, zeros above for the unsigned commands and 16 copies of the value's
bit 15 above for the signed ones. That CMDREG and BUF keep what no rule writes is the model's choice (log entry 16). -/
def Obligations.ReadWordResults : Prop :=
  ∀ (reg : RegAddr) (delay : Ticks) (s : State) (info : Info) (b0 b1 : Byte) (rest : List Event),
    s.phase = .dataWait → s.events = .readReply false info 2 [b0, b1] :: rest →
      ∀ x ∈ ([(.readU16Be reg delay, BitVec.zeroExtend 32 (b0 ++ b1)), (.readU16Le reg delay, BitVec.zeroExtend 32 (b1 ++ b0)),
              (.readS16Be reg delay, BitVec.signExtend 32 (b0 ++ b1)), (.readS16Le reg delay, BitVec.signExtend 32 (b1 ++ b0))] :
              List (Instr × ResultWord)),
        exec x.1 s = .next { s with
          phase := .idle
          pending := none
          events := rest
          buf := ⟨b0, b1, s.buf.b2⟩
          outputs := s.outputs ++ [.trace ⟨.read, 2, [b0, b1], some delay⟩, .response ⟨responseWord .ok 0 x.2, []⟩] }

/-- R167, second row: a failing data read of a register read answers TransferError with `info` and COUNT 0, whatever count
and data the reply carries; no event; BUF unspecified (R23).
That CMDREG and BUF keep what no rule writes is the model's choice (log entry 16). -/
def Obligations.ReadDataFailure : Prop :=
  ∀ (reg : RegAddr) (delay : Ticks) (s : State), ∀ x ∈ registerReads reg delay, ∀ info count data rest,
    s.phase = .dataWait → s.events = .readReply true info count data :: rest →
      ∃ b n, exec x.1 s = .next { s with
        phase := .idle
        pending := none
        events := rest
        buf := b
        freeIx := n
        outputs := s.outputs ++ [.response ⟨responseWord .transferError 0 info, []⟩] }

/-! ### Register writes (spec/44_register_write.md) -/

/-- R180, R190, S11: each register write in Open sends its frame, address and data together, in one write request; BUF holds
the frame, its two bytes or its three (R23). That the third byte of BUF stands under a two-byte frame is the model's choice (log
entry 16). -/
def Obligations.WriteSendsOneFrame : Prop :=
  ∀ (reg : RegAddr) (b : Byte) (v : Half) (s : State), ∀ x ∈ registerWrites reg b v s.buf,
    s.phase = .idle → s.lifecycle = .opened →
      exec x.1 s = .next { s with
        cmdreg := x.1.word
        buf := x.2.2
        pending := some (.write x.2.1)
        phase := .dataWait
        outputs := s.outputs ++ [.request (.write x.2.1)] }

/-- R188, R189, R91, R181 to R186: the reply to a register write. On success one trace event with the whole frame (R189, the
spec's derivation from R180) and `OK`, COUNT 0 (R91); on failure TransferError with `info`, COUNT 0, no event. What CMDREG and
BUF hold after the response is left open (U14, R23). -/
def Obligations.WriteReplyEnds : Prop :=
  ∀ (reg : RegAddr) (b : Byte) (v : Half) (s : State), ∀ x ∈ registerWrites reg b v s.buf, ∀ info count rest,
    s.phase = .dataWait →
      (s.events = .writeReply false info count :: rest → count.toNat = x.2.1.length →
        ∃ w c, exec x.1 s = .next { s with
          phase := .idle
          cmdreg := w
          buf := c
          pending := none
          events := rest
          outputs := s.outputs ++
            [.trace ⟨.write, BitVec.ofNat 16 x.2.1.length, x.2.1, none⟩, .response ⟨responseWord .ok 0 0, []⟩] }) ∧
      (s.events = .writeReply true info count :: rest →
        ∃ w c n, exec x.1 s = .next { s with
          phase := .idle
          cmdreg := w
          pending := none
          events := rest
          buf := c
          freeIx := n
          outputs := s.outputs ++ [.response ⟨responseWord .transferError 0 info, []⟩] })

/-! ### The step -/

/-- R28: in IDLE, unless a reset or a late reply arrives (log entries 2, 21), the step takes the first command at the port and,
if it decodes, is `exec` of it on the state without it; with a command in flight, where no other agent's event comes first, it
is `exec` of the command CMDREG holds. -/
def Obligations.StepRunsCommand : Prop :=
  (∀ (s : State) (c : Command) (rest : List Command) (i : Instr),
    s.phase = .idle → s.port = c :: rest → s.portFirst = true →
    decode c.word c.payload = .command i → step s = exec i { s with port := rest }) ∧
  (∀ (s : State) (i : Instr), s.phase ≠ .idle → s.ambient = none → s.inFlight = some i → step s = exec i s)

/-- R240, R242: the reset input, in every phase, puts STATE, BUS, ADDR, PHASE and TMR at their reset values, CMDREG and BUF
unspecified, nothing outstanding, and emits nothing: no request and, for a command in flight, no response. What waits at the
command port stays outside the block (log entry 17, the model's reading), and an outstanding request is not recalled (R241): it
joins the abandoned ones (log entry 21). -/
def Obligations.ResetInputAbandons : Prop :=
  ∀ (s : State) (rest : List Event), s.events = .reset :: rest →
    ∃ w b n, step s = .next
      { lifecycle := .unbound, bus := 0, addr := 0, phase := .idle, cmdreg := w, tmr := 0, buf := b, pending := none,
        abandoned := s.abandoned ++ s.pending.toList, port := s.port, events := rest, outputs := s.outputs, freeIx := n }

/-- R41: the values the spec gives for reset, and no outstanding request. -/
def Obligations.ResetValues : Prop :=
  State.reset.lifecycle.code = 0 ∧ State.reset.bus = 0 ∧ State.reset.addr = 0 ∧ State.reset.phase.code = 0 ∧
    State.reset.tmr = 0 ∧ State.reset.pending = none

/-- R30: with nothing arriving, a command that waits for a reply stays where it is; there is no time-out. -/
def Obligations.WaitsWithoutReply : Prop :=
  ∀ s : State, s.CommandHeld → s.events = [] → s.phase.waits = true → step s = .next s

/-- R246: a command is taken from the port only in IDLE; while a command is in flight the commands at the port stay, in order,
and only a command the host presents joins them, at the end. That the port is a list which a presented command joins at the end
is the model's choice (log entry 1), and that it stands through a reset its reading (log entry 17). -/
def Obligations.PortHeldWhileBusy : Prop :=
  ∀ s t : State, s.phase ≠ .idle → step s = .next t →
    t.port = s.port ∨ ∃ c rest, s.events = .present c :: rest ∧ t = { s with port := s.port ++ [c], events := rest }

/-- R28 ("A tick that arrives when PHASE != SETTLE ... changes nothing") and R241 (a reply that finds PHASE = IDLE is
discarded; an abandoned request it answers is then answered, log entry 21). A command at the port in IDLE goes before a tick and
before a reply that no abandoned request is owed (log entry 2). -/
def Obligations.TicksAndStaleRepliesChangeNothing : Prop :=
  (∀ (s : State) (rest : List Event), s.events = .tick :: rest → s.phase ≠ .settle → s.phase ≠ .idle ∨ s.port = [] →
    step s = .next { s with events := rest }) ∧
  (∀ (s : State) (e : Event) (rest : List Event), s.events = e :: rest → e.isReply = true → s.phase = .idle →
    s.port = [] ∨ s.isLate e = true →
    step s = .next { s with events := rest, abandoned := s.abandoned.eraseP (·.repliedBy e) })

/-! ### Invariants and whole-machine rules -/

/-- R38, R41: the reset state meets the invariants, and holds no command. -/
def Obligations.InvariantAtReset : Prop :=
  State.reset.Inv ∧ State.reset.CommandHeld

/-- R38 items 1 to 5: every step keeps them. -/
def Obligations.StepKeepsInvariant : Prop :=
  ∀ s t : State, s.Inv → step s = .next t → t.Inv

/-- R21, R28, R29: every step keeps that CMDREG holds the command in flight, that the phase is one of the command's, and that
what is outstanding is that command's request for that phase. -/
def Obligations.StepKeepsCommandHeld : Prop :=
  ∀ s t : State, s.CommandHeld → step s = .next t → t.CommandHeld

/-- R28, R30, R55, R59: where CMDREG holds the command in flight, the step goes on exactly when the collaborators keep their
contract; it never faults, and where the contract is broken it refuses. -/
def Obligations.StepGoesOnUnderContract : Prop :=
  ∀ s : State, s.CommandHeld →
    (s.wellAnswered = true → ∃ t, step s = .next t) ∧
    (s.wellAnswered = false →
      step s = .refused .brokenTransportContract ∨ step s = .refused .replyNotAwaited)

/-- R33: the transitions of STATE, complete. -/
def Obligations.LifecycleTransitionsComplete : Prop :=
  ∀ s t : State, s.Inv → step s = .next t →
    (∀ rest, s.events = .reset :: rest → t.lifecycle = .unbound) ∧
    (∀ info rest, s.phase = .bindWait → s.events = .bindReply false info :: rest →
      s.lifecycle = .unbound ∧ t.lifecycle = .opened) ∧
    (∀ info rest, s.phase = .bindWait → s.events = .bindReply true info :: rest →
      s.lifecycle = .unbound ∧ t.lifecycle = .unbound) ∧
    (∀ err info rest, s.phase = .releaseWait → s.events = .releaseReply err info :: rest →
      s.lifecycle = .opened ∧ t.lifecycle = .closed) ∧
    (t.lifecycle ≠ s.lifecycle →
      (∃ rest, s.events = .reset :: rest) ∨
      (∃ info rest, s.phase = .bindWait ∧ s.events = .bindReply false info :: rest) ∨
      (∃ err info rest, s.phase = .releaseWait ∧ s.events = .releaseReply err info :: rest))

/-- R112: once bound, no step but a reset changes BUS or ADDR, makes a bind request, or leads back to Unbound. -/
def Obligations.BindingFixedForLifetime : Prop :=
  ∀ s t : State, s.Inv → s.lifecycle ≠ .unbound → (∀ rest, s.events ≠ .reset :: rest) → step s = .next t →
    t.bus = s.bus ∧ t.addr = s.addr ∧ t.lifecycle ≠ .unbound ∧
      ∃ os, t.outputs = s.outputs ++ os ∧ ∀ bus addr, Output.request (.bind bus addr) ∉ os

/-- R38 item 6, R90, R241: every command gets exactly one response: no step but a reset changes the number of commands
answered, in flight, at the port or still to arrive; a reset loses exactly the command in flight. -/
def Obligations.OneResponsePerCommand : Prop :=
  ∀ s t : State, step s = .next t →
    ((∀ rest, s.events ≠ .reset :: rest) → t.commandCount = s.commandCount) ∧
    (∀ rest, s.events = .reset :: rest → t.commandCount + s.owed = s.commandCount)

/-- R55, R38 item 4: a step only adds to what has been emitted, emits at most one request, and only when none is outstanding;
that request is then the one outstanding. A step that emits none leaves the outstanding one or ends it. -/
def Obligations.OneRequestOutstanding : Prop :=
  ∀ s t : State, s.Inv → step s = .next t →
    ∃ os, t.outputs = s.outputs ++ os ∧
      ((requestsIn os = [] ∧ (t.pending = s.pending ∨ t.pending = none)) ∨
        ∃ r, requestsIn os = [r] ∧ s.pending = none ∧ t.pending = some r)

/-- R37: in Unbound and Closed no request goes out on the Byte Transport port; in Closed none at all. -/
def Obligations.NoTransportRequestUnlessOpen : Prop :=
  ∀ s t : State, s.Inv → s.lifecycle ≠ .opened → step s = .next t →
    ∃ os, t.outputs = s.outputs ++ os ∧
      (requestsIn os = [] ∨ ∃ bus addr, requestsIn os = [.bind bus addr] ∧ s.lifecycle = .unbound)

/-- R223, R222: a step emits a trace event exactly when it consumes a successful write or read reply, with the bytes handed to
the write or the bytes of the read reply; a failed transfer and every other step emit none. -/
def Obligations.TraceOncePerSuccess : Prop :=
  ∀ s t : State, s.CommandHeld → step s = .next t →
    ∃ os, t.outputs = s.outputs ++ os ∧
      (∀ info count rest, s.phase.waits = true → s.events = .writeReply false info count :: rest →
        ∃ bytes, s.pending = some (.write bytes) ∧
          tracesIn os = [⟨.write, BitVec.ofNat 16 bytes.length, bytes, none⟩]) ∧
      (∀ info count data rest, s.phase.waits = true → s.events = .readReply false info count data :: rest →
        ∃ delay, tracesIn os = [⟨.read, count, data, delay⟩]) ∧
      ((s.phase.waits = false ∨ ∀ e rest, s.events = e :: rest →
          (∀ info count, e ≠ .writeReply false info count) ∧ ∀ info count data, e ≠ .readReply false info count data) →
        tracesIn os = [])

/-- R225: the record of what was emitted, trace events among it, is never read: with any other record in its place the step
ends the same way, adds the same outputs and leaves everything else the same. Free values are the same in both because the model
draws them by `freeIx` (log entries 5, 6, 7). -/
def Obligations.OutputsNeverRead : Prop :=
  ∀ (s : State) (other : List Output),
    (∀ t, step s = .next t →
      ∃ os, t.outputs = s.outputs ++ os ∧
        step { s with outputs := other } = .next { t with outputs := other ++ os }) ∧
    (∀ f, step s = .fault f → step { s with outputs := other } = .fault f) ∧
    (∀ r, step s = .refused r → step { s with outputs := other } = .refused r)

/-! ### Whole commands -/

/-- R160, R218, R169, R70: a whole register read, from the command at the port to the response: `DELAY` ticks, no more, lie
between the select reply and the read request, and DELAY + 4 steps in all; the outputs in order are the select write, its
trace event, the read request, its trace event, the response. The order of inputs (no reset and no late reply
first) and what CMDREG and BUF keep are the model's choices (log entries 2, 16, 21). -/
def Obligations.RegisterReadRun : Prop :=
  ∀ (reg : RegAddr) (delay : Ticks) (s : State), ∀ x ∈ registerReads reg delay,
    ∀ (c : Command) (later : List Command) (info info' : Info) (data : List Byte) (rest : List Event),
      s.phase = .idle → s.lifecycle = .opened → s.port = c :: later → s.portFirst = true →
      decode c.word c.payload = .command x.1 →
      data.length = x.2.1.toNat →
      s.events = .writeReply false info 1 ::
        (List.replicate delay.toNat .tick ++ .readReply false info' x.2.1 data :: rest) →
      Host.Core.run core (delay.toNat + 4) s = .next { s with
        cmdreg := x.1.word
        tmr := 0
        buf := ⟨data.getD 0 reg, data.getD 1 s.buf.b1, s.buf.b2⟩
        pending := none
        port := later
        events := rest
        outputs := s.outputs ++
          [.request (.write [reg]), .trace ⟨.write, 1, [reg], none⟩, .request (.read x.2.1),
           .trace ⟨.read, x.2.1, data, some delay⟩,
           .response ⟨responseWord .ok 0 (x.2.2 ⟨data.getD 0 reg, data.getD 1 s.buf.b1, s.buf.b2⟩), []⟩] }

/-- R167: a register read that fails at its select makes one request, waits for no tick and never asks for the read; one that
fails at its read has made both requests and emitted the event of the select. The order of inputs
(no reset and no late reply first) and what CMDREG keeps are the model's choices (log entries 2, 16, 21). -/
def Obligations.RegisterReadFailures : Prop :=
  ∀ (reg : RegAddr) (delay : Ticks) (s : State), ∀ x ∈ registerReads reg delay,
    ∀ (c : Command) (later : List Command) (info info' : Info) (count : Len) (data : List Byte) (rest : List Event),
      s.phase = .idle → s.lifecycle = .opened → s.port = c :: later → s.portFirst = true →
      decode c.word c.payload = .command x.1 →
      (s.events = .writeReply true info count :: rest →
        ∃ b n, Host.Core.run core 2 s = .next { s with
          cmdreg := x.1.word
          buf := b
          freeIx := n
          pending := none
          port := later
          events := rest
          outputs := s.outputs ++
            [.request (.write [reg]), .response ⟨responseWord .transferError 0 info, []⟩] }) ∧
      (s.events = .writeReply false info 1 ::
          (List.replicate delay.toNat .tick ++ .readReply true info' count data :: rest) →
        ∃ b n, Host.Core.run core (delay.toNat + 4) s = .next { s with
          cmdreg := x.1.word
          tmr := 0
          buf := b
          freeIx := n
          pending := none
          port := later
          events := rest
          outputs := s.outputs ++
            [.request (.write [reg]), .trace ⟨.write, 1, [reg], none⟩, .request (.read x.2.1),
             .response ⟨responseWord .transferError 0 info', []⟩] })

/-- R180, R187: a whole register write: one request, address and data together, then the response. The order of inputs (no
reset and no late reply first) and what CMDREG and BUF keep are the model's choices (log entries 2, 16, 21). -/
def Obligations.RegisterWriteRun : Prop :=
  ∀ (reg : RegAddr) (b : Byte) (v : Half) (s : State), ∀ x ∈ registerWrites reg b v s.buf,
    ∀ (c : Command) (later : List Command) (info : Info) (count : Len) (rest : List Event),
      s.phase = .idle → s.lifecycle = .opened → s.port = c :: later → s.portFirst = true →
      decode c.word c.payload = .command x.1 →
      (s.events = .writeReply false info count :: rest → count.toNat = x.2.1.length →
        Host.Core.run core 2 s = .next { s with
          cmdreg := x.1.word
          buf := x.2.2
          pending := none
          port := later
          events := rest
          outputs := s.outputs ++
            [.request (.write x.2.1), .trace ⟨.write, BitVec.ofNat 16 x.2.1.length, x.2.1, none⟩,
             .response ⟨responseWord .ok 0 0, []⟩] }) ∧
      (s.events = .writeReply true info count :: rest →
        ∃ f n, Host.Core.run core 2 s = .next { s with
          cmdreg := x.1.word
          buf := f
          freeIx := n
          pending := none
          port := later
          events := rest
          outputs := s.outputs ++
            [.request (.write x.2.1), .response ⟨responseWord .transferError 0 info, []⟩] })

/-- R28 S3 to S6, S11 to S13: BIND, CLOSE, WRITE_BYTES and READ_BYTES, each as a whole, when its reply succeeds: two steps,
one request, one response. The order of inputs (no reset and no late reply
first) and what CMDREG and BUF keep are the model's choices (log entries 2, 16, 21). -/
def Obligations.LifecycleAndRawRuns : Prop :=
  ∀ (s : State) (c : Command) (later : List Command) (info : Info) (rest : List Event),
    s.phase = .idle → s.port = c :: later → s.portFirst = true →
      (∀ addr bus, decode c.word c.payload = .command (.bind addr bus) → s.lifecycle = .unbound →
        s.events = .bindReply false info :: rest →
        Host.Core.run core 2 s = .next { s with
          lifecycle := .opened, bus := bus, addr := addr, cmdreg := c.word, pending := none, port := later, events := rest
          outputs := s.outputs ++ [.request (.bind bus addr), .response ⟨responseWord .ok 0 0, []⟩] }) ∧
      (decode c.word c.payload = .command .close → s.lifecycle = .opened → s.events = .releaseReply false info :: rest →
        Host.Core.run core 2 s = .next { s with
          lifecycle := .closed, cmdreg := c.word, pending := none, port := later, events := rest
          outputs := s.outputs ++ [.request .release, .response ⟨responseWord .ok 0 0, []⟩] }) ∧
      (∀ len payload, decode c.word c.payload = .command (.writeBytes len payload) → s.lifecycle = .opened →
        s.events = .writeReply false info len :: rest →
        Host.Core.run core 2 s = .next { s with
          cmdreg := c.word, pending := none, port := later, events := rest
          outputs := s.outputs ++ [.request (.write payload), .trace ⟨.write, len, payload, none⟩,
            .response ⟨responseWord .ok len 0, []⟩] }) ∧
      (∀ len data, decode c.word c.payload = .command (.readBytes len) → s.lifecycle = .opened →
        data.length = len.toNat → s.events = .readReply false info len data :: rest →
        Host.Core.run core 2 s = .next { s with
          cmdreg := c.word, pending := none, port := later, events := rest
          outputs := s.outputs ++ [.request (.read len), .trace ⟨.read, len, data, none⟩,
            .response ⟨responseWord .ok len 0, data⟩] })

/-- After R166: for equal operands and whatever else is in the state, the four word reads go the same way, step for step: the
same requests as each other, the same trace events, the same state but for CMDREG and the whole response, which is left open.
Which requests these are ReadSelectsRegister and ReadSettles say. That BUF is the same after a TransferError too comes from the
model's draw of free values by `freeIx`: R23 leaves it unspecified (log entry 6). -/
def Obligations.WordReadsShareWire : Prop :=
  ∀ (reg : RegAddr) (delay : Ticks) (s : State) (w w' : CmdWord),
    ∀ i ∈ [Instr.readU16Be reg delay, .readU16Le reg delay, .readS16Be reg delay, .readS16Le reg delay],
    ∀ j ∈ [Instr.readU16Be reg delay, .readU16Le reg delay, .readS16Be reg delay, .readS16Le reg delay],
    ∀ t, exec i { s with cmdreg := w } = .next t →
      ∃ u, exec j { s with cmdreg := w' } = .next u ∧ requestsIn u.outputs = requestsIn t.outputs ∧
        tracesIn u.outputs = tracesIn t.outputs ∧ u = { t with cmdreg := u.cmdreg, outputs := u.outputs }

/-- R145: a signed and an unsigned write of the same pattern differ in nothing the block does but the word in CMDREG: the same
requests, trace events and responses. That BUF is the same after a TransferError too comes from the model's draw of free values by
`freeIx` (log entry 6), and that it stands after OK is the model's choice (log entry 16). -/
def Obligations.SignedWritesEqualUnsigned : Prop :=
  ∀ (reg : RegAddr) (b : Byte) (v : Half) (s : State) (w w' : CmdWord),
    ∀ x ∈ [(Instr.writeU8 reg b, Instr.writeS8 reg b), (.writeU16Be reg v, .writeS16Be reg v),
           (.writeU16Le reg v, .writeS16Le reg v)],
    ∀ t, exec x.1 { s with cmdreg := w } = .next t →
      ∃ cmd, exec x.2 { s with cmdreg := w' } = .next { t with cmdreg := cmd }

/-! ### The converter (spec/42_converter.md) and the response word -/

/-- R140 to R143: the converter's functions as concatenations of bytes. -/
def Obligations.ConverterByBytes : Prop :=
  (∀ b0 b1 : Byte, be16 b0 b1 = b0 ++ b1) ∧ (∀ b0 b1 : Byte, le16 b0 b1 = b1 ++ b0) ∧
  (∀ b0 b1 : Byte, swap16 (b0 ++ b1) = b1 ++ b0) ∧
  (∀ b0 b1 : Byte, be16Bytes (b0 ++ b1) = [b0, b1] ∧ le16Bytes (b0 ++ b1) = [b1, b0])

/-- R146: `swap16` is an involution, and its fixed points are the values whose two bytes are equal, one for each byte. -/
def Obligations.SwapInvolution : Prop :=
  (∀ v : Half, swap16 (swap16 v) = v) ∧ (∀ b : Byte, swap16 (b ++ b) = b ++ b) ∧
    (∀ v : Half, swap16 v = v → ∃! b : Byte, v = b ++ b)

/-- R147, R148: byte-swap symmetry and the six round trips. -/
def Obligations.ConverterRoundTrips : Prop :=
  ∀ (v : Half) (b0 b1 : Byte),
    le16Bytes v = (be16Bytes v).reverse ∧
    be16 (hi8 v) (lo8 v) = v ∧ le16 (lo8 v) (hi8 v) = v ∧
    be16 (lo8 v) (hi8 v) = swap16 v ∧ le16 (hi8 v) (lo8 v) = swap16 v ∧
    be16Bytes (be16 b0 b1) = [b0, b1] ∧ le16Bytes (le16 b0 b1) = [b0, b1]

/-- R144, R149: the extensions to RESULT: the unsigned ones keep the number, the signed one keeps the two's-complement
number, and the low 16 bits are the same for both. -/
def Obligations.ResultExtension : Prop :=
  (∀ b : Byte, (zext8 b).toNat = b.toNat) ∧ (∀ v : Half, (zext16 v).toNat = v.toNat) ∧
  (∀ v : Half, (sext16 v).toInt = v.toInt) ∧
  (∀ v : Half, (sext16 v).toNat % 2 ^ 16 = v.toNat ∧ (zext16 v).toNat % 2 ^ 16 = v.toNat)

/-- R90, R200: the fields of the response word and the status numbers. -/
def Obligations.ResponseWordFields : Prop :=
  (∀ st count result, (responseWord st count result).toNat =
      st.code.toNat + count.toNat * 2 ^ 16 + result.toNat * 2 ^ 32) ∧
  Status.ok.code = 0 ∧ Status.bindError.code = 1 ∧ Status.transferError.code = 2 ∧ Status.channelClosed.code = 3 ∧
  Status.illegalCommand.code = 4

/-! ### Frames -/

/-- Frame of the five register reads (R161 to R165, "State written: none in the block", and R28): STATE, BUS, ADDR and the
command port never change; CMDREG changes only at acceptance, TMR only at the select reply and in SETTLE, BUF only at
acceptance, at the data reply and after a TransferError (R23); at most the first event is consumed. That CMDREG, and BUF but
for a TransferError, stand through the step that responds is the model's choice (log entry 16). -/
def Obligations.FrameOfRegisterReads : Prop :=
  ∀ (reg : RegAddr) (delay : Ticks) (s t : State), ∀ x ∈ registerReads reg delay, exec x.1 s = .next t →
    t.lifecycle = s.lifecycle ∧ t.bus = s.bus ∧ t.addr = s.addr ∧ t.port = s.port ∧ t.abandoned = s.abandoned ∧
    (s.phase ≠ .idle → t.cmdreg = s.cmdreg) ∧ (s.phase ≠ .selectWait → s.phase ≠ .settle → t.tmr = s.tmr) ∧
    (t.events = s.events ∨ ∃ e, s.events = e :: t.events) ∧
    ∃ os, t.outputs = s.outputs ++ os ∧
      (t.buf ≠ s.buf → s.phase = .idle ∨ s.phase = .dataWait ∨
        ∃ count info data, os = [.response ⟨responseWord .transferError count info, data⟩])

/-- Frame of the six register writes and the two raw transfers (R130, R132, R181 to R186): STATE, BUS, ADDR, TMR and the command
port never change; CMDREG changes only at acceptance; after acceptance BUF changes only where the command ends in TransferError
(R23), and the raw transfers leave it alone at acceptance too. That CMDREG, and BUF after OK, stand through the step that
responds is the model's choice (log entry 16). -/
def Obligations.FrameOfWritesAndRaw : Prop :=
  (∀ (reg : RegAddr) (b : Byte) (v : Half) (s t : State), ∀ x ∈ registerWrites reg b v s.buf, exec x.1 s = .next t →
    t.lifecycle = s.lifecycle ∧ t.bus = s.bus ∧ t.addr = s.addr ∧ t.tmr = s.tmr ∧ t.port = s.port ∧
    t.abandoned = s.abandoned ∧ (s.phase ≠ .idle → t.cmdreg = s.cmdreg) ∧
    (t.events = s.events ∨ ∃ e, s.events = e :: t.events) ∧
    ∃ os, t.outputs = s.outputs ++ os ∧
      (s.phase ≠ .idle → t.buf ≠ s.buf →
        ∃ count info data, os = [.response ⟨responseWord .transferError count info, data⟩])) ∧
  (∀ (len : Len) (payload : List Byte) (s t : State), ∀ i ∈ [Instr.writeBytes len payload, .readBytes len],
    exec i s = .next t →
    t.lifecycle = s.lifecycle ∧ t.bus = s.bus ∧ t.addr = s.addr ∧ t.tmr = s.tmr ∧ t.port = s.port ∧
    t.abandoned = s.abandoned ∧ (s.phase ≠ .idle → t.cmdreg = s.cmdreg) ∧
    (t.events = s.events ∨ ∃ e, s.events = e :: t.events) ∧
    ∃ os, t.outputs = s.outputs ++ os ∧
      (t.buf ≠ s.buf → ∃ count info data, os = [.response ⟨responseWord .transferError count info, data⟩]))

/-- Frame of BIND, CLOSE and the accessors (R111, R113, R115, R117): TMR and the command port never change; BIND leaves BUF
alone and changes STATE, BUS and ADDR only in BIND_WAIT; CLOSE keeps BUS and ADDR (D29); an accessor adds one response and
changes nothing else. That BIND keeps BUF, and BIND and CLOSE keep CMDREG, through the step that responds is the model's choice
(log entry 16). -/
def Obligations.FrameOfLifecycleCommands : Prop :=
  (∀ (addr : DevAddr) (bus : BusId) (s t : State), exec (.bind addr bus) s = .next t →
    t.tmr = s.tmr ∧ t.port = s.port ∧ t.abandoned = s.abandoned ∧ t.buf = s.buf ∧
    (s.phase ≠ .bindWait → t.lifecycle = s.lifecycle ∧ t.bus = s.bus ∧ t.addr = s.addr) ∧
    (s.phase ≠ .idle → t.cmdreg = s.cmdreg)) ∧
  (∀ s t : State, exec .close s = .next t →
    t.tmr = s.tmr ∧ t.port = s.port ∧ t.abandoned = s.abandoned ∧ t.bus = s.bus ∧ t.addr = s.addr ∧
    (s.phase ≠ .releaseWait → t.lifecycle = s.lifecycle ∧ t.buf = s.buf) ∧ (s.phase ≠ .idle → t.cmdreg = s.cmdreg)) ∧
  (∀ s t : State, ∀ i ∈ [Instr.getBus, .getAddr], exec i s = .next t →
    ∃ r, t = { s with outputs := s.outputs ++ [.response r] })

/-! ### The Reference Device (spec/20_memory.md R73) and the assembler (spec/30_encoding.md R94) -/

/-- R148 second line, R73 (the source's first testable property): on the Reference Device, its memory in canonical form (log
entry 19) and no failure switched on, the frame of `WRITE_U16_LE reg, v`, then the select of `reg`, then a read of two bytes
give a reply on which `READ_U16_LE reg` answers `v`; and the big-endian pair likewise. -/
def Obligations.LoopbackRoundTrip : Prop :=
  ∀ (d : RefDevice) (reg : RegAddr) (v : Half) (delay : Ticks) (s : State) (rest : List Event),
    d.mem.wf = true → d.failW = false → d.failR = false → s.phase = .dataWait →
    ∀ x ∈ [(Instr.writeU16Le reg v, Instr.readU16Le reg delay), (.writeU16Be reg v, .readU16Be reg delay)],
    ∀ frame sel req, requestIn x.1 .dataWait = some frame → requestIn x.2 .selectWait = some sel →
      requestIn x.2 .dataWait = some req →
      s.events = (((d.answer frame).1.answer sel).1.answer req).2 :: rest →
        ∃ t, exec x.2 s = .next t ∧
          responsesIn t.outputs = responsesIn s.outputs ++ [⟨responseWord .ok 0 (BitVec.zeroExtend 32 v), []⟩]

/-- The Reference Device's memory keeps its canonical form (R73, log entry 19: the form is the model's choice). -/
def Obligations.DeviceKeepsCanonicalMemory : Prop :=
  ∀ (d : RefDevice) (r : Request), d.mem.wf = true → (d.answer r).1.mem.wf = true

/-- R94, R95: which command each line assembles to, for every line of R94's table: the command whose operands have exactly the
line's numbers as their values, unsigned ones as `toNat`, signed ones as two's complement (`toInt`), LEN the number of bytes
listed; and no command where no operand of the field's width has that value. A read without its delay is the read with delay 0,
in each of R95's five forms. Every assembled command is well formed. (A line is a mnemonic with integers: log entry 20.) -/
def Obligations.AssembledCommandsEncode : Prop :=
  ∀ i : Instr,
    (∀ line, assemble line = some i → i.wf = true) ∧
    (∀ addr bus : Int, assemble (.bind addr bus) = some i ↔
      ∃ a b, i = .bind a b ∧ (a.toNat : Int) = addr ∧ (b.toNat : Int) = bus) ∧
    ((assemble .close = some i ↔ i = .close) ∧ (assemble .getBus = some i ↔ i = .getBus) ∧
      (assemble .getAddr = some i ↔ i = .getAddr)) ∧
    (∀ bytes : List Int, assemble (.writeBytes bytes) = some i ↔
      ∃ len payload, i = .writeBytes len payload ∧ len.toNat = bytes.length ∧
        payload.map (fun b => (b.toNat : Int)) = bytes) ∧
    (∀ n : Int, assemble (.readBytes n) = some i ↔ ∃ len, i = .readBytes len ∧ (len.toNat : Int) = n) ∧
    (∀ x ∈ [(AsmLine.readU8, Instr.readU8), (.readU16Be, .readU16Be), (.readU16Le, .readU16Le), (.readS16Be, .readS16Be),
            (.readS16Le, .readS16Le)],
      ∀ reg : Int,
        (∀ delay : Int, assemble (x.1 reg (some delay)) = some i ↔
          ∃ r d, i = x.2 r d ∧ (r.toNat : Int) = reg ∧ (d.toNat : Int) = delay) ∧
        (assemble (x.1 reg none) = some i ↔ ∃ r, i = x.2 r 0 ∧ (r.toNat : Int) = reg)) ∧
    (∀ reg value : Int,
      (assemble (.writeU8 reg value) = some i ↔
        ∃ r b, i = .writeU8 r b ∧ (r.toNat : Int) = reg ∧ (b.toNat : Int) = value) ∧
      (assemble (.writeS8 reg value) = some i ↔ ∃ r b, i = .writeS8 r b ∧ (r.toNat : Int) = reg ∧ b.toInt = value) ∧
      (∀ x ∈ [(AsmLine.writeU16Be, Instr.writeU16Be), (.writeU16Le, .writeU16Le)],
        assemble (x.1 reg value) = some i ↔ ∃ r v, i = x.2 r v ∧ (r.toNat : Int) = reg ∧ (v.toNat : Int) = value) ∧
      (∀ x ∈ [(AsmLine.writeS16Be, Instr.writeS16Be), (.writeS16Le, .writeS16Le)],
        assemble (x.1 reg value) = some i ↔ ∃ r v, i = x.2 r v ∧ (r.toNat : Int) = reg ∧ v.toInt = value))

/-- R94's table of operand ranges, every line: a line assembles exactly when each number is in its range; out of range "no word
exists for it". (A line is a mnemonic with integers: log entry 20.) -/
def Obligations.AssemblerRanges : Prop :=
  (∀ addr bus : Int, (assemble (.bind addr bus)).isSome = true ↔
    (0 ≤ addr ∧ addr ≤ 127) ∧ 0 ≤ bus ∧ bus ≤ 4294967295) ∧
  (∀ line ∈ [AsmLine.close, .getBus, .getAddr], (assemble line).isSome = true) ∧
  (∀ bytes : List Int, (assemble (.writeBytes bytes)).isSome = true ↔
    (∀ b ∈ bytes, 0 ≤ b ∧ b ≤ 255) ∧ bytes.length ≤ 65535) ∧
  (∀ n : Int, (assemble (.readBytes n)).isSome = true ↔ 0 ≤ n ∧ n ≤ 65535) ∧
  (∀ line ∈ [AsmLine.readU8, .readU16Be, .readU16Le, .readS16Be, .readS16Le], ∀ reg : Int,
    (∀ delay : Int, (assemble (line reg (some delay))).isSome = true ↔
      (0 ≤ reg ∧ reg ≤ 255) ∧ 0 ≤ delay ∧ delay ≤ 4294967295) ∧
    ((assemble (line reg none)).isSome = true ↔ 0 ≤ reg ∧ reg ≤ 255)) ∧
  (∀ x ∈ [(AsmLine.writeU8, 0, 255), (.writeS8, -128, 127), (.writeU16Be, 0, 65535), (.writeU16Le, 0, 65535),
          (.writeS16Be, -32768, 32767), (.writeS16Le, -32768, 32767)],
    ∀ reg value : Int, (assemble (x.1 reg value)).isSome = true ↔
      (0 ≤ reg ∧ reg ≤ 255) ∧ x.2.1 ≤ value ∧ value ≤ x.2.2)

/-! ### IDLE: late replies and waiting (spec/70_reset_and_hazards.md) -/

/-- R241, U15: a request outstanding when a reset comes is not recalled, and its reply, arriving next, finds PHASE = IDLE and is
discarded, whatever command waits at the port: after the two steps the block is as reset leaves it, nothing has been emitted,
the command still waits, and one request of that kind fewer is owed a reply. What is owed changes at a reset and at a late reply
in IDLE only. The list of what is owed, and that a reply is told late by its kind, are the model's (log entries 17, 21). -/
def Obligations.LateReplyDiscarded : Prop :=
  (∀ (s : State) (r : Request) (e : Event) (rest : List Event),
    s.pending = some r → r.repliedBy e = true → s.events = .reset :: e :: rest →
    ∃ w b n, Host.Core.run core 2 s = .next
      { lifecycle := .unbound, bus := 0, addr := 0, phase := .idle, cmdreg := w, tmr := 0, buf := b, pending := none,
        abandoned := (s.abandoned ++ [r]).eraseP (·.repliedBy e), port := s.port, events := rest, outputs := s.outputs,
        freeIx := n }) ∧
  (∀ s t : State, step s = .next t → t.abandoned ≠ s.abandoned →
    (∃ rest, s.events = .reset :: rest ∧ t.abandoned = s.abandoned ++ s.pending.toList) ∨
    (∃ e rest, s.events = e :: rest ∧ s.phase = .idle ∧ s.isLate e = true ∧
      t.abandoned = s.abandoned.eraseP (·.repliedBy e)))

/-- R243, R246: in IDLE with nothing at the port the block waits: with nothing arriving the state stands, and a command the host
presents joins the port, where the next step finds it. That waiting is a step to the same state, and the port and the arrivals
as lists, are the model's (log entries 1, 2, 10). -/
def Obligations.IdleWaitsForCommand : Prop :=
  (∀ s : State, s.phase = .idle → s.port = [] → s.events = [] → step s = .next s) ∧
  (∀ (s : State) (c : Command) (rest : List Event), s.phase = .idle → s.port = [] → s.events = .present c :: rest →
    step s = .next { s with port := [c], events := rest })
end

