-- ==== Sys2Proof/Laws/Decode.lean ====
section
/-! SUPPORT. The command word by its fields: what each format's fields are, when a reserved mask is clear, and that a word with
clear reserved bits is the one its fields make. -/

namespace Sys2Proof

/-- A concatenation as a number. -/
theorem toNat_append_add {m n : Nat} (x : BitVec m) (y : BitVec n) : (x ++ y).toNat = x.toNat * 2 ^ n + y.toNat := by
  rw [BitVec.toNat_append, ← Nat.shiftLeft_add_eq_or_of_lt y.isLt, Nat.shiftLeft_eq]

/-- A field of a word as a number. -/
theorem toNat_field (w : CmdWord) (a n : Nat) : (w.extractLsb' a n).toNat = w.toNat / 2 ^ a % 2 ^ n := by
  rw [BitVec.extractLsb'_toNat, Nat.shiftRight_eq_div_pow]

/-! ### The formats as numbers -/

theorem wordN_toNat (op : Byte) : (wordN op).toNat = op.toNat := by
  simp only [wordN, toNat_append_add, BitVec.ofNat_eq_ofNat, BitVec.toNat_ofNat]
  omega

theorem wordB_toNat (op : Byte) (addr : DevAddr) (bus : BusId) :
    (wordB op addr bus).toNat = op.toNat + addr.toNat * 2 ^ 8 + bus.toNat * 2 ^ 32 := by
  simp only [wordB, toNat_append_add, BitVec.ofNat_eq_ofNat, BitVec.toNat_ofNat]
  omega

theorem wordR_toNat (op : Byte) (reg : RegAddr) (delay : Ticks) :
    (wordR op reg delay).toNat = op.toNat + reg.toNat * 2 ^ 8 + delay.toNat * 2 ^ 32 := by
  simp only [wordR, toNat_append_add, BitVec.ofNat_eq_ofNat, BitVec.toNat_ofNat]
  omega

theorem wordW8_toNat (op : Byte) (reg : RegAddr) (data : Byte) :
    (wordW8 op reg data).toNat = op.toNat + reg.toNat * 2 ^ 8 + data.toNat * 2 ^ 16 := by
  simp only [wordW8, toNat_append_add, BitVec.ofNat_eq_ofNat, BitVec.toNat_ofNat]
  omega

theorem wordW16_toNat (op : Byte) (reg : RegAddr) (data : Half) :
    (wordW16 op reg data).toNat = op.toNat + reg.toNat * 2 ^ 8 + data.toNat * 2 ^ 16 := by
  simp only [wordW16, toNat_append_add, BitVec.ofNat_eq_ofNat, BitVec.toNat_ofNat]
  omega

theorem wordX_toNat (op : Byte) (len : Len) : (wordX op len).toNat = op.toNat + len.toNat * 2 ^ 16 := by
  simp only [wordX, toNat_append_add, BitVec.ofNat_eq_ofNat, BitVec.toNat_ofNat]
  omega

/-! ### Reserved masks -/

/-- The mask of a contiguous field. -/
def fieldMask (a n : Nat) : CmdWord := (BitVec.allOnes n).zeroExtend 64 <<< a

/-- The bits of a field's mask. -/
theorem getLsbD_fieldMask {a n i : Nat} (h : a + n ≤ 64) :
    (fieldMask a n).getLsbD i = decide (a ≤ i ∧ i < a + n) := by
  rw [fieldMask, BitVec.getLsbD_shiftLeft, BitVec.getLsbD_setWidth, BitVec.getLsbD_allOnes]
  rw [Bool.eq_iff_iff]
  simp
  omega

/-- A field's mask is clear exactly when the field is 0. -/
theorem and_fieldMask_eq_zero {w : CmdWord} {a n : Nat} (h : a + n ≤ 64) :
    w &&& fieldMask a n = 0 ↔ w.toNat / 2 ^ a % 2 ^ n = 0 := by
  rw [← toNat_field, ← BitVec.toNat_zero (w := n), BitVec.toNat_inj]
  constructor
  · intro hz
    apply BitVec.eq_of_getLsbD_eq
    intro i hi
    have hb := congrArg (fun v => v.getLsbD (a + i)) hz
    rw [BitVec.getLsbD_extractLsb']
    simpa [getLsbD_fieldMask h, hi] using hb
  · intro hz
    apply BitVec.eq_of_getLsbD_eq
    intro i hi
    rw [BitVec.getLsbD_and, getLsbD_fieldMask h]
    by_cases hr : a ≤ i ∧ i < a + n
    · have hb := congrArg (fun v => v.getLsbD (i - a)) hz
      simp only [BitVec.getLsbD_extractLsb', Nat.add_sub_cancel' hr.1] at hb
      simp [hr, show i - a < n by omega] at hb ⊢
      exact hb
    · simp [hr]

theorem reserved_n {w : CmdWord} : w &&& Format.n.reservedMask = 0 ↔ w.toNat / 2 ^ 8 % 2 ^ 56 = 0 :=
  and_fieldMask_eq_zero (a := 8) (n := 56) (by decide)

theorem reserved_b {w : CmdWord} : w &&& Format.b.reservedMask = 0 ↔ w.toNat / 2 ^ 15 % 2 ^ 17 = 0 :=
  and_fieldMask_eq_zero (a := 15) (n := 17) (by decide)

theorem reserved_r {w : CmdWord} : w &&& Format.r.reservedMask = 0 ↔ w.toNat / 2 ^ 16 % 2 ^ 16 = 0 :=
  and_fieldMask_eq_zero (a := 16) (n := 16) (by decide)

theorem reserved_w8 {w : CmdWord} : w &&& Format.w8.reservedMask = 0 ↔ w.toNat / 2 ^ 24 % 2 ^ 40 = 0 :=
  and_fieldMask_eq_zero (a := 24) (n := 40) (by decide)

theorem reserved_w16 {w : CmdWord} : w &&& Format.w16.reservedMask = 0 ↔ w.toNat / 2 ^ 32 % 2 ^ 32 = 0 :=
  and_fieldMask_eq_zero (a := 32) (n := 32) (by decide)

theorem reserved_x {w : CmdWord} :
    w &&& Format.x.reservedMask = 0 ↔ w.toNat / 2 ^ 8 % 2 ^ 8 = 0 ∧ w.toNat / 2 ^ 32 % 2 ^ 32 = 0 := by
  have hm : Format.x.reservedMask = fieldMask 8 8 ||| fieldMask 32 32 := by decide
  rw [hm, BitVec.and_or_distrib_left]
  exact BitVec.or_eq_zero_iff.trans (and_congr (and_fieldMask_eq_zero (by decide)) (and_fieldMask_eq_zero (by decide)))

/-! ### Fields of a format's word, and back -/

theorem opField_of_toNat {w : CmdWord} {op : Byte} {k : Nat} (h : w.toNat = op.toNat + k * 2 ^ 8) : opField w = op := by
  apply BitVec.eq_of_toNat_eq
  rw [opField, toNat_field, h]
  omega

@[simp] theorem opField_wordN (op : Byte) : opField (wordN op) = op :=
  opField_of_toNat (k := 0) (by simp [wordN_toNat])

@[simp] theorem opField_wordB (op : Byte) (addr : DevAddr) (bus : BusId) : opField (wordB op addr bus) = op :=
  opField_of_toNat (k := addr.toNat + bus.toNat * 2 ^ 24) (by rw [wordB_toNat]; omega)

@[simp] theorem opField_wordR (op : Byte) (reg : RegAddr) (delay : Ticks) : opField (wordR op reg delay) = op :=
  opField_of_toNat (k := reg.toNat + delay.toNat * 2 ^ 24) (by rw [wordR_toNat]; omega)

@[simp] theorem opField_wordW8 (op : Byte) (reg : RegAddr) (data : Byte) : opField (wordW8 op reg data) = op :=
  opField_of_toNat (k := reg.toNat + data.toNat * 2 ^ 8) (by rw [wordW8_toNat]; omega)

@[simp] theorem opField_wordW16 (op : Byte) (reg : RegAddr) (data : Half) : opField (wordW16 op reg data) = op :=
  opField_of_toNat (k := reg.toNat + data.toNat * 2 ^ 8) (by rw [wordW16_toNat]; omega)

@[simp] theorem opField_wordX (op : Byte) (len : Len) : opField (wordX op len) = op :=
  opField_of_toNat (k := len.toNat * 2 ^ 8) (by rw [wordX_toNat]; omega)

@[simp] theorem baddrField_wordB (op : Byte) (addr : DevAddr) (bus : BusId) : baddrField (wordB op addr bus) = addr := by
  apply BitVec.eq_of_toNat_eq
  rw [baddrField, toNat_field, wordB_toNat]
  omega

@[simp] theorem bbusField_wordB (op : Byte) (addr : DevAddr) (bus : BusId) : bbusField (wordB op addr bus) = bus := by
  apply BitVec.eq_of_toNat_eq
  rw [bbusField, toNat_field, wordB_toNat]
  omega

@[simp] theorem regField_wordR (op : Byte) (reg : RegAddr) (delay : Ticks) : regField (wordR op reg delay) = reg := by
  apply BitVec.eq_of_toNat_eq
  rw [regField, toNat_field, wordR_toNat]
  omega

@[simp] theorem delayField_wordR (op : Byte) (reg : RegAddr) (delay : Ticks) : delayField (wordR op reg delay) = delay := by
  apply BitVec.eq_of_toNat_eq
  rw [delayField, toNat_field, wordR_toNat]
  omega

@[simp] theorem regField_wordW8 (op : Byte) (reg : RegAddr) (data : Byte) : regField (wordW8 op reg data) = reg := by
  apply BitVec.eq_of_toNat_eq
  rw [regField, toNat_field, wordW8_toNat]
  omega

@[simp] theorem data8Field_wordW8 (op : Byte) (reg : RegAddr) (data : Byte) : data8Field (wordW8 op reg data) = data := by
  apply BitVec.eq_of_toNat_eq
  rw [data8Field, toNat_field, wordW8_toNat]
  omega

@[simp] theorem regField_wordW16 (op : Byte) (reg : RegAddr) (data : Half) : regField (wordW16 op reg data) = reg := by
  apply BitVec.eq_of_toNat_eq
  rw [regField, toNat_field, wordW16_toNat]
  omega

@[simp] theorem data16Field_wordW16 (op : Byte) (reg : RegAddr) (data : Half) :
    data16Field (wordW16 op reg data) = data := by
  apply BitVec.eq_of_toNat_eq
  rw [data16Field, toNat_field, wordW16_toNat]
  omega

@[simp] theorem lenField_wordX (op : Byte) (len : Len) : lenField (wordX op len) = len := by
  apply BitVec.eq_of_toNat_eq
  rw [lenField, toNat_field, wordX_toNat]
  omega

theorem wordN_of_reserved {w : CmdWord} (h : w &&& Format.n.reservedMask = 0) : wordN (opField w) = w := by
  rw [reserved_n] at h
  apply BitVec.eq_of_toNat_eq
  rw [wordN_toNat, opField, toNat_field]
  omega

theorem wordB_of_reserved {w : CmdWord} (h : w &&& Format.b.reservedMask = 0) :
    wordB (opField w) (baddrField w) (bbusField w) = w := by
  rw [reserved_b] at h
  apply BitVec.eq_of_toNat_eq
  rw [wordB_toNat, opField, baddrField, bbusField, toNat_field, toNat_field, toNat_field]
  omega

theorem wordR_of_reserved {w : CmdWord} (h : w &&& Format.r.reservedMask = 0) :
    wordR (opField w) (regField w) (delayField w) = w := by
  rw [reserved_r] at h
  apply BitVec.eq_of_toNat_eq
  rw [wordR_toNat, opField, regField, delayField, toNat_field, toNat_field, toNat_field]
  omega

theorem wordW8_of_reserved {w : CmdWord} (h : w &&& Format.w8.reservedMask = 0) :
    wordW8 (opField w) (regField w) (data8Field w) = w := by
  rw [reserved_w8] at h
  apply BitVec.eq_of_toNat_eq
  rw [wordW8_toNat, opField, regField, data8Field, toNat_field, toNat_field, toNat_field]
  omega

theorem wordW16_of_reserved {w : CmdWord} (h : w &&& Format.w16.reservedMask = 0) :
    wordW16 (opField w) (regField w) (data16Field w) = w := by
  rw [reserved_w16] at h
  apply BitVec.eq_of_toNat_eq
  rw [wordW16_toNat, opField, regField, data16Field, toNat_field, toNat_field, toNat_field]
  omega

theorem wordX_of_reserved {w : CmdWord} (h : w &&& Format.x.reservedMask = 0) :
    wordX (opField w) (lenField w) = w := by
  rw [reserved_x] at h
  apply BitVec.eq_of_toNat_eq
  rw [wordX_toNat, opField, lenField, toNat_field, toNat_field]
  omega

/-! ### Opcodes -/

/-- Every opcode is found by its byte. -/
@[simp] theorem Op.ofCode_code (o : Op) : Op.ofCode o.code = some o := by
  cases o <;> decide

/-- An opcode that is found has that byte. -/
theorem Op.code_of_ofCode {c : Byte} {o : Op} (h : Op.ofCode c = some o) : o.code = c := by
  simpa using List.find?_some h

/-- The OP byte of a command's word is its opcode's. -/
@[simp] theorem opField_word (i : Instr) : opField i.word = i.op.code := by
  cases i <;> simp [Instr.word]

end Sys2Proof
end

