-- ==== Sys2Proof/Laws/Converter.lean ====
section
/-! SUPPORT. Every 16-bit value is two bytes; the byte functions as numbers. -/

namespace Sys2Proof.Machine

theorem hi8_toNat (v : Half) : (hi8 v).toNat = v.toNat / 2 ^ 8 % 2 ^ 8 := by
  rw [hi8, BitVec.extractLsb'_toNat, Nat.shiftRight_eq_div_pow]

theorem lo8_toNat (v : Half) : (lo8 v).toNat = v.toNat % 2 ^ 8 := by
  simp [lo8]

@[simp] theorem hi8_append (b0 b1 : Byte) : hi8 (b0 ++ b1) = b0 := by
  apply BitVec.eq_of_toNat_eq
  rw [hi8_toNat, toNat_append_add]
  omega

@[simp] theorem lo8_append (b0 b1 : Byte) : lo8 (b0 ++ b1) = b1 := by
  apply BitVec.eq_of_toNat_eq
  rw [lo8_toNat, toNat_append_add]
  omega

/-- A 16-bit value is its high byte followed by its low byte. -/
theorem hi8_append_lo8 (v : Half) : hi8 v ++ lo8 v = v := by
  apply BitVec.eq_of_toNat_eq
  rw [toNat_append_add, hi8_toNat, lo8_toNat]
  omega

theorem be16_toNat (b0 b1 : Byte) : (be16 b0 b1).toNat = b0.toNat * 2 ^ 8 + b1.toNat := by
  simp only [be16, BitVec.toNat_add, BitVec.toNat_shiftLeft, BitVec.truncate_eq_setWidth, BitVec.toNat_setWidth,
    Nat.shiftLeft_eq]
  omega

end Sys2Proof.Machine
end

