-- ==== Sys2Proof/Laws/State.lean ====
section
/-! SUPPORT. What each update of the state writes and what it leaves, one lemma a field. -/

namespace Sys2Proof.Machine

/-! ### emit -/

@[simp] theorem State.emit_lifecycle (s : State) (o : Output) : (s.emit o).lifecycle = s.lifecycle := rfl
@[simp] theorem State.emit_bus (s : State) (o : Output) : (s.emit o).bus = s.bus := rfl
@[simp] theorem State.emit_addr (s : State) (o : Output) : (s.emit o).addr = s.addr := rfl
@[simp] theorem State.emit_phase (s : State) (o : Output) : (s.emit o).phase = s.phase := rfl
@[simp] theorem State.emit_cmdreg (s : State) (o : Output) : (s.emit o).cmdreg = s.cmdreg := rfl
@[simp] theorem State.emit_tmr (s : State) (o : Output) : (s.emit o).tmr = s.tmr := rfl
@[simp] theorem State.emit_buf (s : State) (o : Output) : (s.emit o).buf = s.buf := rfl
@[simp] theorem State.emit_pending (s : State) (o : Output) : (s.emit o).pending = s.pending := rfl
@[simp] theorem State.emit_abandoned (s : State) (o : Output) : (s.emit o).abandoned = s.abandoned := rfl
@[simp] theorem State.emit_port (s : State) (o : Output) : (s.emit o).port = s.port := rfl
@[simp] theorem State.emit_events (s : State) (o : Output) : (s.emit o).events = s.events := rfl
@[simp] theorem State.emit_outputs (s : State) (o : Output) : (s.emit o).outputs = s.outputs ++ [o] := rfl
@[simp] theorem State.emit_freeIx (s : State) (o : Output) : (s.emit o).freeIx = s.freeIx := rfl

/-! ### latch -/

@[simp] theorem State.latch_lifecycle (s : State) (w : CmdWord) : (s.latch w).lifecycle = s.lifecycle := rfl
@[simp] theorem State.latch_bus (s : State) (w : CmdWord) : (s.latch w).bus = s.bus := rfl
@[simp] theorem State.latch_addr (s : State) (w : CmdWord) : (s.latch w).addr = s.addr := rfl
@[simp] theorem State.latch_phase (s : State) (w : CmdWord) : (s.latch w).phase = s.phase := rfl
@[simp] theorem State.latch_cmdreg (s : State) (w : CmdWord) : (s.latch w).cmdreg = w := rfl
@[simp] theorem State.latch_tmr (s : State) (w : CmdWord) : (s.latch w).tmr = s.tmr := rfl
@[simp] theorem State.latch_buf (s : State) (w : CmdWord) : (s.latch w).buf = s.buf := rfl
@[simp] theorem State.latch_pending (s : State) (w : CmdWord) : (s.latch w).pending = s.pending := rfl
@[simp] theorem State.latch_abandoned (s : State) (w : CmdWord) : (s.latch w).abandoned = s.abandoned := rfl
@[simp] theorem State.latch_port (s : State) (w : CmdWord) : (s.latch w).port = s.port := rfl
@[simp] theorem State.latch_events (s : State) (w : CmdWord) : (s.latch w).events = s.events := rfl
@[simp] theorem State.latch_outputs (s : State) (w : CmdWord) : (s.latch w).outputs = s.outputs := rfl
@[simp] theorem State.latch_freeIx (s : State) (w : CmdWord) : (s.latch w).freeIx = s.freeIx := rfl

/-! ### issue -/

@[simp] theorem State.issue_lifecycle (s : State) (r : Request) (p : Phase) : (s.issue r p).lifecycle = s.lifecycle := rfl
@[simp] theorem State.issue_bus (s : State) (r : Request) (p : Phase) : (s.issue r p).bus = s.bus := rfl
@[simp] theorem State.issue_addr (s : State) (r : Request) (p : Phase) : (s.issue r p).addr = s.addr := rfl
@[simp] theorem State.issue_phase (s : State) (r : Request) (p : Phase) : (s.issue r p).phase = p := rfl
@[simp] theorem State.issue_cmdreg (s : State) (r : Request) (p : Phase) : (s.issue r p).cmdreg = s.cmdreg := rfl
@[simp] theorem State.issue_tmr (s : State) (r : Request) (p : Phase) : (s.issue r p).tmr = s.tmr := rfl
@[simp] theorem State.issue_buf (s : State) (r : Request) (p : Phase) : (s.issue r p).buf = s.buf := rfl
@[simp] theorem State.issue_pending (s : State) (r : Request) (p : Phase) : (s.issue r p).pending = some r := rfl
@[simp] theorem State.issue_abandoned (s : State) (r : Request) (p : Phase) : (s.issue r p).abandoned = s.abandoned := rfl
@[simp] theorem State.issue_port (s : State) (r : Request) (p : Phase) : (s.issue r p).port = s.port := rfl
@[simp] theorem State.issue_events (s : State) (r : Request) (p : Phase) : (s.issue r p).events = s.events := rfl
@[simp] theorem State.issue_outputs (s : State) (r : Request) (p : Phase) : (s.issue r p).outputs = s.outputs ++ [.request r] := rfl
@[simp] theorem State.issue_freeIx (s : State) (r : Request) (p : Phase) : (s.issue r p).freeIx = s.freeIx := rfl

/-! ### fillBuf -/

@[simp] theorem State.fillBuf_lifecycle (s : State) (bytes : List Byte) : (s.fillBuf bytes).lifecycle = s.lifecycle := rfl
@[simp] theorem State.fillBuf_bus (s : State) (bytes : List Byte) : (s.fillBuf bytes).bus = s.bus := rfl
@[simp] theorem State.fillBuf_addr (s : State) (bytes : List Byte) : (s.fillBuf bytes).addr = s.addr := rfl
@[simp] theorem State.fillBuf_phase (s : State) (bytes : List Byte) : (s.fillBuf bytes).phase = s.phase := rfl
@[simp] theorem State.fillBuf_cmdreg (s : State) (bytes : List Byte) : (s.fillBuf bytes).cmdreg = s.cmdreg := rfl
@[simp] theorem State.fillBuf_tmr (s : State) (bytes : List Byte) : (s.fillBuf bytes).tmr = s.tmr := rfl
@[simp] theorem State.fillBuf_buf (s : State) (bytes : List Byte) : (s.fillBuf bytes).buf = s.buf.fill bytes := rfl
@[simp] theorem State.fillBuf_pending (s : State) (bytes : List Byte) : (s.fillBuf bytes).pending = s.pending := rfl
@[simp] theorem State.fillBuf_abandoned (s : State) (bytes : List Byte) : (s.fillBuf bytes).abandoned = s.abandoned := rfl
@[simp] theorem State.fillBuf_port (s : State) (bytes : List Byte) : (s.fillBuf bytes).port = s.port := rfl
@[simp] theorem State.fillBuf_events (s : State) (bytes : List Byte) : (s.fillBuf bytes).events = s.events := rfl
@[simp] theorem State.fillBuf_outputs (s : State) (bytes : List Byte) : (s.fillBuf bytes).outputs = s.outputs := rfl
@[simp] theorem State.fillBuf_freeIx (s : State) (bytes : List Byte) : (s.fillBuf bytes).freeIx = s.freeIx := rfl

/-! ### respond -/

@[simp] theorem State.respond_lifecycle (s : State) (st : Status) (c : Len) (r : ResultWord) (d : List Byte) : (s.respond st c r d).lifecycle = s.lifecycle := rfl
@[simp] theorem State.respond_bus (s : State) (st : Status) (c : Len) (r : ResultWord) (d : List Byte) : (s.respond st c r d).bus = s.bus := rfl
@[simp] theorem State.respond_addr (s : State) (st : Status) (c : Len) (r : ResultWord) (d : List Byte) : (s.respond st c r d).addr = s.addr := rfl
@[simp] theorem State.respond_phase (s : State) (st : Status) (c : Len) (r : ResultWord) (d : List Byte) : (s.respond st c r d).phase = .idle := rfl
@[simp] theorem State.respond_cmdreg (s : State) (st : Status) (c : Len) (r : ResultWord) (d : List Byte) : (s.respond st c r d).cmdreg = s.cmdreg := rfl
@[simp] theorem State.respond_tmr (s : State) (st : Status) (c : Len) (r : ResultWord) (d : List Byte) : (s.respond st c r d).tmr = s.tmr := rfl
@[simp] theorem State.respond_buf (s : State) (st : Status) (c : Len) (r : ResultWord) (d : List Byte) : (s.respond st c r d).buf = s.buf := rfl
@[simp] theorem State.respond_pending (s : State) (st : Status) (c : Len) (r : ResultWord) (d : List Byte) : (s.respond st c r d).pending = s.pending := rfl
@[simp] theorem State.respond_abandoned (s : State) (st : Status) (c : Len) (r : ResultWord) (d : List Byte) : (s.respond st c r d).abandoned = s.abandoned := rfl
@[simp] theorem State.respond_port (s : State) (st : Status) (c : Len) (r : ResultWord) (d : List Byte) : (s.respond st c r d).port = s.port := rfl
@[simp] theorem State.respond_events (s : State) (st : Status) (c : Len) (r : ResultWord) (d : List Byte) : (s.respond st c r d).events = s.events := rfl
@[simp] theorem State.respond_outputs (s : State) (st : Status) (c : Len) (r : ResultWord) (d : List Byte) : (s.respond st c r d).outputs = s.outputs ++ [.response ⟨responseWord st c r, d⟩] := rfl
@[simp] theorem State.respond_freeIx (s : State) (st : Status) (c : Len) (r : ResultWord) (d : List Byte) : (s.respond st c r d).freeIx = s.freeIx := rfl

/-! ### forgetBuf -/

@[simp] theorem State.forgetBuf_lifecycle (s : State) : s.forgetBuf.lifecycle = s.lifecycle := rfl
@[simp] theorem State.forgetBuf_bus (s : State) : s.forgetBuf.bus = s.bus := rfl
@[simp] theorem State.forgetBuf_addr (s : State) : s.forgetBuf.addr = s.addr := rfl
@[simp] theorem State.forgetBuf_phase (s : State) : s.forgetBuf.phase = s.phase := rfl
@[simp] theorem State.forgetBuf_cmdreg (s : State) : s.forgetBuf.cmdreg = s.cmdreg := rfl
@[simp] theorem State.forgetBuf_tmr (s : State) : s.forgetBuf.tmr = s.tmr := rfl
@[simp] theorem State.forgetBuf_pending (s : State) : s.forgetBuf.pending = s.pending := rfl
@[simp] theorem State.forgetBuf_abandoned (s : State) : s.forgetBuf.abandoned = s.abandoned := rfl
@[simp] theorem State.forgetBuf_port (s : State) : s.forgetBuf.port = s.port := rfl
@[simp] theorem State.forgetBuf_events (s : State) : s.forgetBuf.events = s.events := rfl
@[simp] theorem State.forgetBuf_outputs (s : State) : s.forgetBuf.outputs = s.outputs := rfl
@[simp] theorem State.forgetBuf_freeIx (s : State) : s.forgetBuf.freeIx = s.freeIx + 1 := rfl

/-! ### takeReply -/

@[simp] theorem State.takeReply_lifecycle (s : State) (rest : List Event) : (s.takeReply rest).lifecycle = s.lifecycle := rfl
@[simp] theorem State.takeReply_bus (s : State) (rest : List Event) : (s.takeReply rest).bus = s.bus := rfl
@[simp] theorem State.takeReply_addr (s : State) (rest : List Event) : (s.takeReply rest).addr = s.addr := rfl
@[simp] theorem State.takeReply_phase (s : State) (rest : List Event) : (s.takeReply rest).phase = s.phase := rfl
@[simp] theorem State.takeReply_cmdreg (s : State) (rest : List Event) : (s.takeReply rest).cmdreg = s.cmdreg := rfl
@[simp] theorem State.takeReply_tmr (s : State) (rest : List Event) : (s.takeReply rest).tmr = s.tmr := rfl
@[simp] theorem State.takeReply_buf (s : State) (rest : List Event) : (s.takeReply rest).buf = s.buf := rfl
@[simp] theorem State.takeReply_pending (s : State) (rest : List Event) : (s.takeReply rest).pending = none := rfl
@[simp] theorem State.takeReply_abandoned (s : State) (rest : List Event) : (s.takeReply rest).abandoned = s.abandoned := rfl
@[simp] theorem State.takeReply_port (s : State) (rest : List Event) : (s.takeReply rest).port = s.port := rfl
@[simp] theorem State.takeReply_events (s : State) (rest : List Event) : (s.takeReply rest).events = rest := rfl
@[simp] theorem State.takeReply_outputs (s : State) (rest : List Event) : (s.takeReply rest).outputs = s.outputs := rfl
@[simp] theorem State.takeReply_freeIx (s : State) (rest : List Event) : (s.takeReply rest).freeIx = s.freeIx := rfl

/-! ### startSettle -/

@[simp] theorem State.startSettle_lifecycle (s : State) (d : Ticks) : (s.startSettle d).lifecycle = s.lifecycle := rfl
@[simp] theorem State.startSettle_bus (s : State) (d : Ticks) : (s.startSettle d).bus = s.bus := rfl
@[simp] theorem State.startSettle_addr (s : State) (d : Ticks) : (s.startSettle d).addr = s.addr := rfl
@[simp] theorem State.startSettle_phase (s : State) (d : Ticks) : (s.startSettle d).phase = .settle := rfl
@[simp] theorem State.startSettle_cmdreg (s : State) (d : Ticks) : (s.startSettle d).cmdreg = s.cmdreg := rfl
@[simp] theorem State.startSettle_tmr (s : State) (d : Ticks) : (s.startSettle d).tmr = d := rfl
@[simp] theorem State.startSettle_buf (s : State) (d : Ticks) : (s.startSettle d).buf = s.buf := rfl
@[simp] theorem State.startSettle_pending (s : State) (d : Ticks) : (s.startSettle d).pending = s.pending := rfl
@[simp] theorem State.startSettle_abandoned (s : State) (d : Ticks) : (s.startSettle d).abandoned = s.abandoned := rfl
@[simp] theorem State.startSettle_port (s : State) (d : Ticks) : (s.startSettle d).port = s.port := rfl
@[simp] theorem State.startSettle_events (s : State) (d : Ticks) : (s.startSettle d).events = s.events := rfl
@[simp] theorem State.startSettle_outputs (s : State) (d : Ticks) : (s.startSettle d).outputs = s.outputs := rfl
@[simp] theorem State.startSettle_freeIx (s : State) (d : Ticks) : (s.startSettle d).freeIx = s.freeIx := rfl

/-! ### countDown -/

@[simp] theorem State.countDown_lifecycle (s : State) (rest : List Event) : (s.countDown rest).lifecycle = s.lifecycle := rfl
@[simp] theorem State.countDown_bus (s : State) (rest : List Event) : (s.countDown rest).bus = s.bus := rfl
@[simp] theorem State.countDown_addr (s : State) (rest : List Event) : (s.countDown rest).addr = s.addr := rfl
@[simp] theorem State.countDown_phase (s : State) (rest : List Event) : (s.countDown rest).phase = s.phase := rfl
@[simp] theorem State.countDown_cmdreg (s : State) (rest : List Event) : (s.countDown rest).cmdreg = s.cmdreg := rfl
@[simp] theorem State.countDown_tmr (s : State) (rest : List Event) : (s.countDown rest).tmr = s.tmr - 1 := rfl
@[simp] theorem State.countDown_buf (s : State) (rest : List Event) : (s.countDown rest).buf = s.buf := rfl
@[simp] theorem State.countDown_pending (s : State) (rest : List Event) : (s.countDown rest).pending = s.pending := rfl
@[simp] theorem State.countDown_abandoned (s : State) (rest : List Event) : (s.countDown rest).abandoned = s.abandoned := rfl
@[simp] theorem State.countDown_port (s : State) (rest : List Event) : (s.countDown rest).port = s.port := rfl
@[simp] theorem State.countDown_events (s : State) (rest : List Event) : (s.countDown rest).events = rest := rfl
@[simp] theorem State.countDown_outputs (s : State) (rest : List Event) : (s.countDown rest).outputs = s.outputs := rfl
@[simp] theorem State.countDown_freeIx (s : State) (rest : List Event) : (s.countDown rest).freeIx = s.freeIx := rfl

/-! ### resetInput -/

@[simp] theorem State.resetInput_lifecycle (s : State) (rest : List Event) : (s.resetInput rest).lifecycle = .unbound := rfl
@[simp] theorem State.resetInput_bus (s : State) (rest : List Event) : (s.resetInput rest).bus = 0 := rfl
@[simp] theorem State.resetInput_addr (s : State) (rest : List Event) : (s.resetInput rest).addr = 0 := rfl
@[simp] theorem State.resetInput_phase (s : State) (rest : List Event) : (s.resetInput rest).phase = .idle := rfl
@[simp] theorem State.resetInput_tmr (s : State) (rest : List Event) : (s.resetInput rest).tmr = 0 := rfl
@[simp] theorem State.resetInput_pending (s : State) (rest : List Event) : (s.resetInput rest).pending = none := rfl
@[simp] theorem State.resetInput_abandoned (s : State) (rest : List Event) : (s.resetInput rest).abandoned = s.abandoned ++ s.pending.toList := rfl
@[simp] theorem State.resetInput_port (s : State) (rest : List Event) : (s.resetInput rest).port = s.port := rfl
@[simp] theorem State.resetInput_events (s : State) (rest : List Event) : (s.resetInput rest).events = rest := rfl
@[simp] theorem State.resetInput_outputs (s : State) (rest : List Event) : (s.resetInput rest).outputs = s.outputs := rfl
@[simp] theorem State.resetInput_freeIx (s : State) (rest : List Event) : (s.resetInput rest).freeIx = s.freeIx + 1 := rfl

/-! ### enqueue -/

@[simp] theorem State.enqueue_lifecycle (s : State) (c : Command) (rest : List Event) : (s.enqueue c rest).lifecycle = s.lifecycle := rfl
@[simp] theorem State.enqueue_bus (s : State) (c : Command) (rest : List Event) : (s.enqueue c rest).bus = s.bus := rfl
@[simp] theorem State.enqueue_addr (s : State) (c : Command) (rest : List Event) : (s.enqueue c rest).addr = s.addr := rfl
@[simp] theorem State.enqueue_phase (s : State) (c : Command) (rest : List Event) : (s.enqueue c rest).phase = s.phase := rfl
@[simp] theorem State.enqueue_cmdreg (s : State) (c : Command) (rest : List Event) : (s.enqueue c rest).cmdreg = s.cmdreg := rfl
@[simp] theorem State.enqueue_tmr (s : State) (c : Command) (rest : List Event) : (s.enqueue c rest).tmr = s.tmr := rfl
@[simp] theorem State.enqueue_buf (s : State) (c : Command) (rest : List Event) : (s.enqueue c rest).buf = s.buf := rfl
@[simp] theorem State.enqueue_pending (s : State) (c : Command) (rest : List Event) : (s.enqueue c rest).pending = s.pending := rfl
@[simp] theorem State.enqueue_abandoned (s : State) (c : Command) (rest : List Event) : (s.enqueue c rest).abandoned = s.abandoned := rfl
@[simp] theorem State.enqueue_port (s : State) (c : Command) (rest : List Event) : (s.enqueue c rest).port = s.port ++ [c] := rfl
@[simp] theorem State.enqueue_events (s : State) (c : Command) (rest : List Event) : (s.enqueue c rest).events = rest := rfl
@[simp] theorem State.enqueue_outputs (s : State) (c : Command) (rest : List Event) : (s.enqueue c rest).outputs = s.outputs := rfl
@[simp] theorem State.enqueue_freeIx (s : State) (c : Command) (rest : List Event) : (s.enqueue c rest).freeIx = s.freeIx := rfl

/-! ### discard -/

@[simp] theorem State.discard_lifecycle (s : State) (rest : List Event) : (s.discard rest).lifecycle = s.lifecycle := rfl
@[simp] theorem State.discard_bus (s : State) (rest : List Event) : (s.discard rest).bus = s.bus := rfl
@[simp] theorem State.discard_addr (s : State) (rest : List Event) : (s.discard rest).addr = s.addr := rfl
@[simp] theorem State.discard_phase (s : State) (rest : List Event) : (s.discard rest).phase = s.phase := rfl
@[simp] theorem State.discard_cmdreg (s : State) (rest : List Event) : (s.discard rest).cmdreg = s.cmdreg := rfl
@[simp] theorem State.discard_tmr (s : State) (rest : List Event) : (s.discard rest).tmr = s.tmr := rfl
@[simp] theorem State.discard_buf (s : State) (rest : List Event) : (s.discard rest).buf = s.buf := rfl
@[simp] theorem State.discard_pending (s : State) (rest : List Event) : (s.discard rest).pending = s.pending := rfl
@[simp] theorem State.discard_abandoned (s : State) (rest : List Event) : (s.discard rest).abandoned = s.abandoned := rfl
@[simp] theorem State.discard_port (s : State) (rest : List Event) : (s.discard rest).port = s.port := rfl
@[simp] theorem State.discard_events (s : State) (rest : List Event) : (s.discard rest).events = rest := rfl
@[simp] theorem State.discard_outputs (s : State) (rest : List Event) : (s.discard rest).outputs = s.outputs := rfl
@[simp] theorem State.discard_freeIx (s : State) (rest : List Event) : (s.discard rest).freeIx = s.freeIx := rfl

/-! ### discardReply -/

@[simp] theorem State.discardReply_lifecycle (s : State) (e : Event) (rest : List Event) : (s.discardReply e rest).lifecycle = s.lifecycle := rfl
@[simp] theorem State.discardReply_bus (s : State) (e : Event) (rest : List Event) : (s.discardReply e rest).bus = s.bus := rfl
@[simp] theorem State.discardReply_addr (s : State) (e : Event) (rest : List Event) : (s.discardReply e rest).addr = s.addr := rfl
@[simp] theorem State.discardReply_phase (s : State) (e : Event) (rest : List Event) : (s.discardReply e rest).phase = s.phase := rfl
@[simp] theorem State.discardReply_cmdreg (s : State) (e : Event) (rest : List Event) : (s.discardReply e rest).cmdreg = s.cmdreg := rfl
@[simp] theorem State.discardReply_tmr (s : State) (e : Event) (rest : List Event) : (s.discardReply e rest).tmr = s.tmr := rfl
@[simp] theorem State.discardReply_buf (s : State) (e : Event) (rest : List Event) : (s.discardReply e rest).buf = s.buf := rfl
@[simp] theorem State.discardReply_pending (s : State) (e : Event) (rest : List Event) : (s.discardReply e rest).pending = s.pending := rfl
@[simp] theorem State.discardReply_abandoned (s : State) (e : Event) (rest : List Event) : (s.discardReply e rest).abandoned = s.abandoned.eraseP (·.repliedBy e) := rfl
@[simp] theorem State.discardReply_port (s : State) (e : Event) (rest : List Event) : (s.discardReply e rest).port = s.port := rfl
@[simp] theorem State.discardReply_events (s : State) (e : Event) (rest : List Event) : (s.discardReply e rest).events = rest := rfl
@[simp] theorem State.discardReply_outputs (s : State) (e : Event) (rest : List Event) : (s.discardReply e rest).outputs = s.outputs := rfl
@[simp] theorem State.discardReply_freeIx (s : State) (e : Event) (rest : List Event) : (s.discardReply e rest).freeIx = s.freeIx := rfl

/-! ### bindTo -/

@[simp] theorem State.bindTo_lifecycle (s : State) (a : DevAddr) (b : BusId) : (s.bindTo a b).lifecycle = .opened := rfl
@[simp] theorem State.bindTo_bus (s : State) (a : DevAddr) (b : BusId) : (s.bindTo a b).bus = b := rfl
@[simp] theorem State.bindTo_addr (s : State) (a : DevAddr) (b : BusId) : (s.bindTo a b).addr = a := rfl
@[simp] theorem State.bindTo_phase (s : State) (a : DevAddr) (b : BusId) : (s.bindTo a b).phase = s.phase := rfl
@[simp] theorem State.bindTo_cmdreg (s : State) (a : DevAddr) (b : BusId) : (s.bindTo a b).cmdreg = s.cmdreg := rfl
@[simp] theorem State.bindTo_tmr (s : State) (a : DevAddr) (b : BusId) : (s.bindTo a b).tmr = s.tmr := rfl
@[simp] theorem State.bindTo_buf (s : State) (a : DevAddr) (b : BusId) : (s.bindTo a b).buf = s.buf := rfl
@[simp] theorem State.bindTo_pending (s : State) (a : DevAddr) (b : BusId) : (s.bindTo a b).pending = s.pending := rfl
@[simp] theorem State.bindTo_abandoned (s : State) (a : DevAddr) (b : BusId) : (s.bindTo a b).abandoned = s.abandoned := rfl
@[simp] theorem State.bindTo_port (s : State) (a : DevAddr) (b : BusId) : (s.bindTo a b).port = s.port := rfl
@[simp] theorem State.bindTo_events (s : State) (a : DevAddr) (b : BusId) : (s.bindTo a b).events = s.events := rfl
@[simp] theorem State.bindTo_outputs (s : State) (a : DevAddr) (b : BusId) : (s.bindTo a b).outputs = s.outputs := rfl
@[simp] theorem State.bindTo_freeIx (s : State) (a : DevAddr) (b : BusId) : (s.bindTo a b).freeIx = s.freeIx := rfl

/-! ### closeChannel -/

@[simp] theorem State.closeChannel_lifecycle (s : State) : s.closeChannel.lifecycle = .closed := rfl
@[simp] theorem State.closeChannel_bus (s : State) : s.closeChannel.bus = s.bus := rfl
@[simp] theorem State.closeChannel_addr (s : State) : s.closeChannel.addr = s.addr := rfl
@[simp] theorem State.closeChannel_phase (s : State) : s.closeChannel.phase = s.phase := rfl
@[simp] theorem State.closeChannel_cmdreg (s : State) : s.closeChannel.cmdreg = s.cmdreg := rfl
@[simp] theorem State.closeChannel_tmr (s : State) : s.closeChannel.tmr = s.tmr := rfl
@[simp] theorem State.closeChannel_buf (s : State) : s.closeChannel.buf = s.buf := rfl
@[simp] theorem State.closeChannel_pending (s : State) : s.closeChannel.pending = s.pending := rfl
@[simp] theorem State.closeChannel_abandoned (s : State) : s.closeChannel.abandoned = s.abandoned := rfl
@[simp] theorem State.closeChannel_port (s : State) : s.closeChannel.port = s.port := rfl
@[simp] theorem State.closeChannel_events (s : State) : s.closeChannel.events = s.events := rfl
@[simp] theorem State.closeChannel_outputs (s : State) : s.closeChannel.outputs = s.outputs := rfl
@[simp] theorem State.closeChannel_freeIx (s : State) : s.closeChannel.freeIx = s.freeIx := rfl

/-! ### trace, raise -/

/-- A successful transfer emits its event (R223). -/
@[simp] theorem State.trace_ok (s : State) (e : TraceEvent) : s.trace true e = s.emit (.trace e) := rfl

/-- A failed transfer emits none (R223). -/
@[simp] theorem State.trace_failed (s : State) (e : TraceEvent) : s.trace false e = s := rfl

@[simp] theorem State.raise_bindError (s : State) (c : Len) (i : Info) (d : List Byte) :
    s.raise .bindError c i d = s.respond .bindError c i d := rfl
@[simp] theorem State.raise_transferError (s : State) (c : Len) (i : Info) (d : List Byte) :
    s.raise .transferError c i d = s.forgetBuf.respond .transferError c i d := rfl
@[simp] theorem State.raise_channelClosed (s : State) (c : Len) (i : Info) (d : List Byte) :
    s.raise .channelClosed c i d = s.respond .channelClosed c i d := rfl
@[simp] theorem State.raise_illegalCommand (s : State) (c : Len) (i : Info) (d : List Byte) :
    s.raise .illegalCommand c i d = s.respond .illegalCommand c i d := rfl

end Sys2Proof.Machine
end

