-- ==== Sys2Proof/Laws/Ops.lean ====
section
/-! SUPPORT. One lemma for each shared operation that says everything it can answer. -/

namespace Sys2Proof.Machine

/-- The lifecycle check faults with ChannelClosed or IllegalCommand only, so a rejection is a plain response. -/
theorem raise_of_lifecycleFault {a : Admission} {l : Lifecycle} {st : Status} {info : Info}
    (h : lifecycleFault a l = some (st, info)) (s : State) :
    s.raise st 0 info [] = s.respond st 0 info [] := by
  cases a <;> cases l <;> simp [lifecycleFault] at h <;> obtain ⟨rfl, rfl⟩ := h <;> rfl

/-- A command of the channel passes the check in Open only (R208). -/
theorem opened_of_channel {l : Lifecycle} (h : lifecycleFault .channel l = none) : l = .opened := by
  cases l
  · cases h
  · rfl
  · cases h

/-- What acceptance answers: a rejection, or the command's own start. -/
theorem accept_next {s t : State} {a : Admission} {go : State → State} (h : s.accept a go = .next t) :
    (∃ st info, lifecycleFault a s.lifecycle = some (st, info) ∧ t = s.respond st 0 info []) ∨
    (lifecycleFault a s.lifecycle = none ∧ t = go s) := by
  unfold State.accept at h
  split at h
  next st info hf =>
    refine .inl ⟨st, info, hf, ?_⟩
    rw [raise_of_lifecycleFault hf] at h
    exact (Host.Outcome.next.inj h).symm
  next hf => exact .inr ⟨hf, (Host.Outcome.next.inj h).symm⟩

/-- Waiting answers: nothing of its own has arrived and the state stands, or a reply is handed on. -/
theorem awaitReply_next {s t : State} {k : Event → State → Out} (h : s.awaitReply k = .next t) :
    (t = s ∧ ∀ e rest, s.events = e :: rest → e.isReply = false) ∨
    (∃ e rest, s.events = e :: rest ∧ e.isReply = true ∧ k e (s.takeReply rest) = .next t) := by
  unfold State.awaitReply at h
  split at h
  next he => exact .inl ⟨(Host.Outcome.next.inj h).symm, by simp [he]⟩
  next e rest he =>
    split at h
    next hr => exact .inr ⟨e, rest, he, hr, h⟩
    next hr =>
      refine .inl ⟨(Host.Outcome.next.inj h).symm, fun e' rest' h' => ?_⟩
      rw [he] at h'
      obtain ⟨rfl, rfl⟩ := List.cons.inj h'
      simpa using hr

/-- What waiting for a write reply answers (R56, R59). -/
theorem awaitWrite_next {s t : State} {n : Nat} {ok : Len → State → State} {bad : Len → Info → State → State}
    (h : s.awaitWrite n ok bad = .next t) :
    (t = s ∧ ∀ e rest, s.events = e :: rest → e.isReply = false) ∨
    (∃ info count rest, s.events = .writeReply false info count :: rest ∧ count.toNat = n ∧
      t = ok count (s.takeReply rest)) ∨
    (∃ info count rest, s.events = .writeReply true info count :: rest ∧ t = bad count info (s.takeReply rest)) := by
  rcases awaitReply_next h with h | ⟨e, rest, he, -, h⟩
  · exact .inl h
  · split at h
    next info count =>
      split at h
      next hc => exact .inr (.inl ⟨info, count, rest, he, hc, (Host.Outcome.next.inj h).symm⟩)
      next => cases h
    next info count => exact .inr (.inr ⟨info, count, rest, he, (Host.Outcome.next.inj h).symm⟩)
    next => cases h

/-- What waiting for a read reply answers (R57, R59). -/
theorem awaitRead_next {s t : State} {n : Nat} {ok : Len → List Byte → State → State}
    {bad : Len → Info → State → State} (h : s.awaitRead n ok bad = .next t) :
    (t = s ∧ ∀ e rest, s.events = e :: rest → e.isReply = false) ∨
    (∃ info count data rest, s.events = .readReply false info count data :: rest ∧ count.toNat = n ∧ data.length = n ∧
      t = ok count data (s.takeReply rest)) ∨
    (∃ info count data rest, s.events = .readReply true info count data :: rest ∧
      t = bad count info (s.takeReply rest)) := by
  rcases awaitReply_next h with h | ⟨e, rest, he, -, h⟩
  · exact .inl h
  · split at h
    next info count data =>
      split at h
      next hc => exact .inr (.inl ⟨info, count, data, rest, he, hc.1, hc.2, (Host.Outcome.next.inj h).symm⟩)
      next => cases h
    next info count data => exact .inr (.inr ⟨info, count, data, rest, he, (Host.Outcome.next.inj h).symm⟩)
    next => cases h

/-- What waiting for a bind reply answers (R61). -/
theorem awaitBind_next {s t : State} {ok : State → State} {bad : Info → State → State}
    (h : s.awaitBind ok bad = .next t) :
    (t = s ∧ ∀ e rest, s.events = e :: rest → e.isReply = false) ∨
    (∃ info rest, s.events = .bindReply false info :: rest ∧ t = ok (s.takeReply rest)) ∨
    (∃ info rest, s.events = .bindReply true info :: rest ∧ t = bad info (s.takeReply rest)) := by
  rcases awaitReply_next h with h | ⟨e, rest, he, -, h⟩
  · exact .inl h
  · split at h
    next info => exact .inr (.inl ⟨info, rest, he, (Host.Outcome.next.inj h).symm⟩)
    next info => exact .inr (.inr ⟨info, rest, he, (Host.Outcome.next.inj h).symm⟩)
    next => cases h

/-- What waiting for a release reply answers (R58). -/
theorem awaitRelease_next {s t : State} {ok : State → State} {bad : Info → State → State}
    (h : s.awaitRelease ok bad = .next t) :
    (t = s ∧ ∀ e rest, s.events = e :: rest → e.isReply = false) ∨
    (∃ info rest, s.events = .releaseReply false info :: rest ∧ t = ok (s.takeReply rest)) ∨
    (∃ info rest, s.events = .releaseReply true info :: rest ∧ t = bad info (s.takeReply rest)) := by
  rcases awaitReply_next h with h | ⟨e, rest, he, -, h⟩
  · exact .inl h
  · split at h
    next info => exact .inr (.inl ⟨info, rest, he, (Host.Outcome.next.inj h).symm⟩)
    next info => exact .inr (.inr ⟨info, rest, he, (Host.Outcome.next.inj h).symm⟩)
    next => cases h

/-- What SETTLE answers: the read request at TMR = 0, one tick down, or nothing yet (R218). -/
theorem settleStep_next {s t : State} {n : Len} (h : s.settleStep n = .next t) :
    (s.tmr = 0 ∧ t = s.issue (.read n) .dataWait) ∨
    (s.tmr ≠ 0 ∧ ∃ rest, s.events = .tick :: rest ∧ t = s.countDown rest) ∨
    (s.tmr ≠ 0 ∧ t = s ∧ ∀ e rest, s.events = e :: rest → e.isReply = false) := by
  unfold State.settleStep at h
  split at h
  next h0 => exact .inl ⟨h0, (Host.Outcome.next.inj h).symm⟩
  next h0 =>
    split at h
    next rest he => exact .inr (.inl ⟨h0, rest, he, (Host.Outcome.next.inj h).symm⟩)
    next he => exact .inr (.inr ⟨h0, (Host.Outcome.next.inj h).symm, by simp [he]⟩)
    next e rest _ he =>
      split at h
      · cases h
      next hr => exact .inr (.inr ⟨h0, (Host.Outcome.next.inj h).symm, by simpa [he] using hr⟩)

/-- Everything a register read can answer, phase by phase (R160). -/
theorem registerRead_next {s t : State} {w : CmdWord} {reg : RegAddr} {n : Len} {delay : Ticks}
    {conv : Buf → ResultWord} (h : s.registerRead w reg n delay conv = .next t) :
    (s.phase = .idle ∧ ∃ st info, lifecycleFault .channel s.lifecycle = some (st, info) ∧ t = s.respond st 0 info []) ∨
    (s.phase = .idle ∧ s.lifecycle = .opened ∧
      t = ((s.latch w).fillBuf [reg]).issue (.write [reg]) .selectWait) ∨
    (s.phase = .selectWait ∧ ∃ info count rest, s.events = .writeReply false info count :: rest ∧ count.toNat = 1 ∧
      t = ((s.takeReply rest).emit (.trace ⟨.write, 1, [reg], none⟩)).startSettle delay) ∨
    (s.phase = .selectWait ∧ ∃ info count rest, s.events = .writeReply true info count :: rest ∧
      t = (s.takeReply rest).forgetBuf.respond .transferError 0 info []) ∨
    (s.phase = .settle ∧ s.tmr = 0 ∧ t = s.issue (.read n) .dataWait) ∨
    (s.phase = .settle ∧ s.tmr ≠ 0 ∧ ∃ rest, s.events = .tick :: rest ∧ t = s.countDown rest) ∨
    (s.phase = .dataWait ∧ ∃ info count data rest, s.events = .readReply false info count data :: rest ∧
      count = n ∧ data.length = n.toNat ∧
      t = (((s.takeReply rest).fillBuf data).emit (.trace ⟨.read, n, data, some delay⟩)).respond .ok 0
        (conv (s.buf.fill data)) []) ∨
    (s.phase = .dataWait ∧ ∃ info count data rest, s.events = .readReply true info count data :: rest ∧
      t = (s.takeReply rest).forgetBuf.respond .transferError 0 info []) ∨
    ((s.phase = .selectWait ∨ s.phase = .settle ∨ s.phase = .dataWait) ∧ t = s ∧
      ∀ e rest, s.events = e :: rest → e.isReply = false) := by
  unfold State.registerRead at h
  split at h
  next hp =>
    rcases accept_next h with ⟨st, info, hf, rfl⟩ | ⟨hf, rfl⟩
    · exact .inl ⟨hp, st, info, hf, rfl⟩
    · refine .inr (.inl ⟨hp, ?_, rfl⟩)
      exact opened_of_channel hf
  next hp =>
    rcases awaitWrite_next h with ⟨rfl, hn⟩ | ⟨info, count, rest, he, hc, rfl⟩ | ⟨info, count, rest, he, rfl⟩
    · exact .inr (.inr (.inr (.inr (.inr (.inr (.inr (.inr ⟨.inl hp, rfl, hn⟩)))))))
    · exact .inr (.inr (.inl ⟨hp, info, count, rest, he, hc, rfl⟩))
    · exact .inr (.inr (.inr (.inl ⟨hp, info, count, rest, he, rfl⟩)))
  next hp =>
    rcases settleStep_next h with ⟨h0, rfl⟩ | ⟨h0, rest, he, rfl⟩ | ⟨h0, rfl, hn⟩
    · exact .inr (.inr (.inr (.inr (.inl ⟨hp, h0, rfl⟩))))
    · exact .inr (.inr (.inr (.inr (.inr (.inl ⟨hp, h0, rest, he, rfl⟩)))))
    · exact .inr (.inr (.inr (.inr (.inr (.inr (.inr (.inr ⟨.inr (.inl hp), rfl, hn⟩)))))))
  next hp =>
    rcases awaitRead_next h with ⟨rfl, hn⟩ | ⟨info, count, data, rest, he, hc, hd, rfl⟩ | ⟨info, count, data, rest, he, rfl⟩
    · exact .inr (.inr (.inr (.inr (.inr (.inr (.inr (.inr ⟨.inr (.inr hp), rfl, hn⟩)))))))
    · obtain rfl : count = n := BitVec.eq_of_toNat_eq hc
      exact .inr (.inr (.inr (.inr (.inr (.inr (.inl ⟨hp, info, count, data, rest, he, rfl, hd, rfl⟩))))))
    · exact .inr (.inr (.inr (.inr (.inr (.inr (.inr (.inl ⟨hp, info, count, data, rest, he, rfl⟩)))))))
  next => cases h
  next => cases h

/-- Everything a register write can answer (R180). -/
theorem registerWrite_next {s t : State} {w : CmdWord} {frame : List Byte} (h : s.registerWrite w frame = .next t) :
    (s.phase = .idle ∧ ∃ st info, lifecycleFault .channel s.lifecycle = some (st, info) ∧ t = s.respond st 0 info []) ∨
    (s.phase = .idle ∧ s.lifecycle = .opened ∧ t = ((s.latch w).fillBuf frame).issue (.write frame) .dataWait) ∨
    (s.phase = .dataWait ∧ ∃ info count rest, s.events = .writeReply false info count :: rest ∧
      count.toNat = frame.length ∧
      t = ((s.takeReply rest).emit (.trace ⟨.write, byteCount frame, frame, none⟩)).respond .ok 0 0 []) ∨
    (s.phase = .dataWait ∧ ∃ info count rest, s.events = .writeReply true info count :: rest ∧
      t = (s.takeReply rest).forgetBuf.respond .transferError 0 info []) ∨
    (s.phase = .dataWait ∧ t = s ∧ ∀ e rest, s.events = e :: rest → e.isReply = false) := by
  unfold State.registerWrite at h
  split at h
  next hp =>
    rcases accept_next h with ⟨st, info, hf, rfl⟩ | ⟨hf, rfl⟩
    · exact .inl ⟨hp, st, info, hf, rfl⟩
    · refine .inr (.inl ⟨hp, ?_, rfl⟩)
      exact opened_of_channel hf
  next hp =>
    rcases awaitWrite_next h with ⟨rfl, hn⟩ | ⟨info, count, rest, he, hc, rfl⟩ | ⟨info, count, rest, he, rfl⟩
    · exact .inr (.inr (.inr (.inr ⟨hp, rfl, hn⟩)))
    · exact .inr (.inr (.inl ⟨hp, info, count, rest, he, hc, rfl⟩))
    · exact .inr (.inr (.inr (.inl ⟨hp, info, count, rest, he, rfl⟩)))
  all_goals cases h

/-- What is no command's step: reset, a command to the port, or an event that changes nothing. -/
theorem ambient_some {s t : State} (h : s.ambient = some t) :
    (∃ rest, s.events = .reset :: rest ∧ t = s.resetInput rest) ∨
    (∃ c rest, s.events = .present c :: rest ∧ t = s.enqueue c rest) ∨
    (∃ rest, s.events = .tick :: rest ∧ s.phase ≠ .settle ∧ t = s.discard rest) ∨
    (∃ e rest, s.events = e :: rest ∧ e.isReply = true ∧ s.phase = .idle ∧ (s.port = [] ∨ s.isLate e = true) ∧
      t = s.discardReply e rest) := by
  unfold State.ambient at h
  split at h
  next => cases h
  next rest he => exact .inl ⟨rest, he, (Option.some.inj h).symm⟩
  next e rest hne he =>
    split at h
    · cases h
    next hg =>
      split at h
      next c => exact .inr (.inl ⟨c, rest, he, (Option.some.inj h).symm⟩)
      next =>
        split at h
        · cases h
        next hp => exact .inr (.inr (.inl ⟨rest, he, hp, (Option.some.inj h).symm⟩))
      next hnp hnt =>
        split at h
        next hp =>
          refine .inr (.inr (.inr ⟨e, rest, he, ?_, hp, ?_, (Option.some.inj h).symm⟩))
          · cases e <;> simp_all [Event.isReply]
          · by_cases hq : s.port = []
            · exact .inl hq
            · exact .inr (by simpa [hp, hq] using hg)
        · cases h

/-- With no request abandoned no reply is late. -/
theorem isLate_of_nil {s : State} (h : s.abandoned = []) (e : Event) : s.isLate e = false := by
  simp [State.isLate, h]

/-- A command at the port in IDLE goes first unless a reset or a late reply arrives. -/
theorem ambient_of_port {s : State} (hp : s.phase = .idle) (hq : s.port ≠ [])
    (he : ∀ e es, s.events = e :: es → e ≠ .reset ∧ s.isLate e = false) : s.ambient = none := by
  unfold State.ambient
  split
  next => rfl
  next rest h => exact absurd rfl (he _ _ h).1
  next e rest _ h => simp [hp, hq, (he _ _ h).2]

/-- The late reply to an abandoned request is discarded in IDLE, whatever waits at the port (R241). -/
theorem ambient_of_late {s : State} {e : Event} {rest : List Event} (hp : s.phase = .idle) (he : s.events = e :: rest)
    (hl : s.isLate e = true) : s.ambient = some (s.discardReply e rest) := by
  obtain ⟨r, -, hr⟩ := List.any_eq_true.mp hl
  unfold State.ambient
  rw [he]
  cases e <;> first | (cases r <;> simp [Request.repliedBy] at hr; done) | simp [hp, hl]

end Sys2Proof.Machine
end

