-- ==== Sys2Proof/Laws/Exec.lean ====
section
/-! SUPPORT. Everything `exec` can answer, for all 17 commands at once: `exec_move`. Claims over all commands go by cases on
`Move`, not by unfolding `exec`. -/

namespace Sys2Proof.Machine

/-- The events that report a transport failure: a write or read reply with `err = 1`. -/
def Event.isFailure : Event → Bool
  | .writeReply err _ _ => err
  | .readReply err _ _ _ => err
  | _ => false

/-- The moves of R28 for command `i`: what a next state of `exec i s` is. -/
inductive Move (i : Instr) (s : State) : State → Prop
  /-- No event of this command's has arrived. -/
  | stays (hp : s.phase ∈ busyPhases i) (hn : ∀ e rest, s.events = e :: rest → e.isReply = false) : Move i s s
  /-- S1, by the lifecycle check. -/
  | rejected {st : Status} {info : Info} (hp : s.phase = .idle) (hst : st = .channelClosed ∨ st = .illegalCommand) :
      Move i s (s.respond st 0 info [])
  /-- S2. -/
  | answered {r : ResultWord} (hp : s.phase = .idle) (hi : i = .getBus ∨ i = .getAddr) (hl : s.lifecycle ≠ .unbound) :
      Move i s (s.respond .ok 0 r [])
  /-- S3. -/
  | startsBind {addr : DevAddr} {bus : BusId} (hp : s.phase = .idle) (hi : i = .bind addr bus)
      (hl : s.lifecycle = .unbound) : Move i s ((s.latch i.word).issue (.bind bus addr) .bindWait)
  /-- S5, S7, S11, S12. -/
  | starts {bytes : List Byte} {r : Request} {p : Phase} (hp : s.phase = .idle) (hl : s.lifecycle = .opened)
      (hm : p ∈ busyPhases i) (hr : requestIn i p = some r) (hb : p ≠ .bindWait) (hs : p ≠ .settle)
      (hn : ∀ b a, r ≠ .bind b a) : Move i s (((s.latch i.word).fillBuf bytes).issue r p)
  /-- S4, `err = 0`. -/
  | bound {addr : DevAddr} {bus : BusId} {info : Info} {rest : List Event} (hp : s.phase = .bindWait)
      (hi : i = .bind addr bus) (he : s.events = .bindReply false info :: rest) :
      Move i s (((s.takeReply rest).bindTo addr bus).respond .ok 0 0 [])
  /-- S4, `err = 1`. -/
  | bindFailed {info : Info} {rest : List Event} (hp : s.phase = .bindWait)
      (he : s.events = .bindReply true info :: rest) : Move i s ((s.takeReply rest).respond .bindError 0 info [])
  /-- S6, `err = 0`. -/
  | released {info : Info} {rest : List Event} (hp : s.phase = .releaseWait)
      (he : s.events = .releaseReply false info :: rest) :
      Move i s ((s.takeReply rest).closeChannel.respond .ok 0 0 [])
  /-- S6, `err = 1`. -/
  | releaseFailed {info : Info} {rest : List Event} (hp : s.phase = .releaseWait)
      (he : s.events = .releaseReply true info :: rest) :
      Move i s ((s.takeReply rest).closeChannel.forgetBuf.respond .transferError 0 info [])
  /-- S8, `err = 0`. -/
  | selected {reg : RegAddr} {delay : Ticks} {info : Info} {count : Len} {rest : List Event} (hp : s.phase = .selectWait)
      (hm : .settle ∈ busyPhases i) (hr : requestIn i .selectWait = some (.write [reg])) (hd : requestIn i .settle = none)
      (he : s.events = .writeReply false info count :: rest) :
      Move i s (((s.takeReply rest).emit (.trace ⟨.write, 1, [reg], none⟩)).startSettle delay)
  /-- S9. -/
  | ticked {rest : List Event} (hp : s.phase = .settle) (hm : .settle ∈ busyPhases i) (ht : s.tmr ≠ 0)
      (he : s.events = .tick :: rest) : Move i s (s.countDown rest)
  /-- S10. -/
  | settled {n : Len} (hp : s.phase = .settle) (ht : s.tmr = 0) (hm : .dataWait ∈ busyPhases i)
      (hr : requestIn i .dataWait = some (.read n)) : Move i s (s.issue (.read n) .dataWait)
  /-- S13, a write that succeeded. -/
  | wrote {bytes : List Byte} {info : Info} {count c : Len} {rest : List Event} (hp : s.phase = .dataWait)
      (hm : .dataWait ∈ busyPhases i) (hr : requestIn i .dataWait = some (.write bytes))
      (he : s.events = .writeReply false info count :: rest) (hc : count.toNat = bytes.length) :
      Move i s (((s.takeReply rest).emit (.trace ⟨.write, byteCount bytes, bytes, none⟩)).respond .ok c 0 [])
  /-- S13, a read that succeeded. -/
  | got {kept data d : List Byte} {info : Info} {n c : Len} {r : ResultWord} {delay : Option Ticks} {rest : List Event}
      (hp : s.phase = .dataWait) (hm : .dataWait ∈ busyPhases i) (hr : requestIn i .dataWait = some (.read n))
      (he : s.events = .readReply false info n data :: rest) (hd : data.length = n.toNat) :
      Move i s ((((s.takeReply rest).fillBuf kept).emit (.trace ⟨.read, n, data, delay⟩)).respond .ok c r d)
  /-- S8 or S13, `err = 1`. -/
  | failed {e : Event} {info : Info} {c : Len} {d : List Byte} {rest : List Event}
      (hp : s.phase = .selectWait ∨ s.phase = .dataWait) (he : s.events = e :: rest) (hf : e.isFailure = true) :
      Move i s ((s.takeReply rest).forgetBuf.respond .transferError c info d)

@[simp] theorem State.fillBuf_nil (s : State) : s.fillBuf [] = s := rfl

/-- A rejected command's status is one of the two of the check (R208). -/
theorem status_of_lifecycleFault {a : Admission} {l : Lifecycle} {st : Status} {info : Info}
    (h : lifecycleFault a l = some (st, info)) : st = .channelClosed ∨ st = .illegalCommand := by
  cases a <;> cases l <;> simp [lifecycleFault] at h <;> simp [← h.1]

/-- A register read makes the moves of R28, given that the command's phases and requests are a register read's. -/
theorem registerRead_move {i : Instr} {s t : State} {reg : RegAddr} {n : Len} {delay : Ticks} {conv : Buf → ResultWord}
    (hb : busyPhases i = [.selectWait, .settle, .dataWait]) (hw : requestIn i .selectWait = some (.write [reg]))
    (hs : requestIn i .settle = none) (hn : requestIn i .dataWait = some (.read n))
    (h : s.registerRead i.word reg n delay conv = .next t) : Move i s t := by
  rcases registerRead_next h with ⟨hp, st, info, hf, rfl⟩ | ⟨hp, hl, rfl⟩ | ⟨hp, info, count, rest, he, -, rfl⟩ |
    ⟨hp, info, count, rest, he, rfl⟩ | ⟨hp, h0, rfl⟩ | ⟨hp, h0, rest, he, rfl⟩ |
    ⟨hp, info, count, data, rest, he, rfl, hd, rfl⟩ | ⟨hp, info, count, data, rest, he, rfl⟩ | ⟨hp, rfl, hn⟩
  · exact .rejected hp (status_of_lifecycleFault hf)
  · exact .starts hp hl (by simp [hb]) hw (by decide) (by decide) (by simp)
  · exact .selected hp (by simp [hb]) hw hs he
  · exact .failed (.inl hp) he rfl
  · exact .settled hp h0 (by simp [hb]) hn
  · exact .ticked hp (by simp [hb]) h0 he
  · exact .got hp (by simp [hb]) hn he hd
  · exact .failed (.inr hp) he rfl
  · exact .stays (by rcases hp with hp | hp | hp <;> simp [hb, hp]) hn

/-- A register write makes the moves of R28. -/
theorem registerWrite_move {i : Instr} {s t : State} {frame : List Byte}
    (hb : busyPhases i = [.dataWait]) (hn : requestIn i .dataWait = some (.write frame))
    (h : s.registerWrite i.word frame = .next t) : Move i s t := by
  rcases registerWrite_next h with ⟨hp, st, info, hf, rfl⟩ | ⟨hp, hl, rfl⟩ | ⟨hp, info, count, rest, he, hc, rfl⟩ |
    ⟨hp, info, count, rest, he, rfl⟩ | ⟨hp, rfl, hn⟩
  · exact .rejected hp (status_of_lifecycleFault hf)
  · exact .starts hp hl (by simp [hb]) hn (by decide) (by decide) (by simp)
  · exact .wrote hp (by simp [hb]) hn he hc
  · exact .failed (.inr hp) he rfl
  · exact .stays (by simp [hb, hp]) hn

theorem execBind_move {addr : DevAddr} {bus : BusId} {s t : State} (h : execBind addr bus s = .next t) :
    Move (.bind addr bus) s t := by
  unfold execBind at h
  split at h
  next hp =>
    rcases accept_next h with ⟨st, info, hf, rfl⟩ | ⟨hf, rfl⟩
    · exact .rejected hp (status_of_lifecycleFault hf)
    · refine .startsBind hp rfl ?_
      cases hl : s.lifecycle
      · rfl
      all_goals simp [hl, lifecycleFault] at hf
  next hp =>
    rcases awaitBind_next h with ⟨rfl, hn⟩ | ⟨info, rest, he, rfl⟩ | ⟨info, rest, he, rfl⟩
    · exact .stays (by simp [busyPhases, hp]) hn
    · exact .bound hp rfl he
    · exact .bindFailed hp he
  all_goals cases h

theorem execClose_move {s t : State} (h : execClose s = .next t) : Move .close s t := by
  unfold execClose at h
  split at h
  next hp =>
    rcases accept_next h with ⟨st, info, hf, rfl⟩ | ⟨hf, rfl⟩
    · exact .rejected hp (status_of_lifecycleFault hf)
    · exact .starts (bytes := []) hp (opened_of_channel hf) (by simp [busyPhases]) rfl (by decide) (by decide) (by simp)
  next hp =>
    rcases awaitRelease_next h with ⟨rfl, hn⟩ | ⟨info, rest, he, rfl⟩ | ⟨info, rest, he, rfl⟩
    · exact .stays (by simp [busyPhases, hp]) hn
    · exact .released hp he
    · exact .releaseFailed hp he
  all_goals cases h

/-- An accessor is answered in Open and in Closed (R206, R208). -/
theorem bound_of_accessor {l : Lifecycle} (h : lifecycleFault .accessor l = none) : l ≠ .unbound := by
  rintro rfl
  cases h

theorem execGetBus_move {s t : State} (h : execGetBus s = .next t) : Move .getBus s t := by
  unfold execGetBus at h
  split at h
  next hp =>
    rcases accept_next h with ⟨st, info, hf, rfl⟩ | ⟨hf, rfl⟩
    · exact .rejected hp (status_of_lifecycleFault hf)
    · exact .answered hp (.inl rfl) (bound_of_accessor hf)
  all_goals cases h

theorem execGetAddr_move {s t : State} (h : execGetAddr s = .next t) : Move .getAddr s t := by
  unfold execGetAddr at h
  split at h
  next hp =>
    rcases accept_next h with ⟨st, info, hf, rfl⟩ | ⟨hf, rfl⟩
    · exact .rejected hp (status_of_lifecycleFault hf)
    · exact .answered hp (.inr rfl) (bound_of_accessor hf)
  all_goals cases h

theorem execWriteBytes_move {len : Len} {payload : List Byte} {s t : State}
    (h : execWriteBytes len payload s = .next t) : Move (.writeBytes len payload) s t := by
  unfold execWriteBytes at h
  split at h
  next hp =>
    rcases accept_next h with ⟨st, info, hf, rfl⟩ | ⟨hf, rfl⟩
    · exact .rejected hp (status_of_lifecycleFault hf)
    · exact .starts (bytes := []) hp (opened_of_channel hf) (by simp [busyPhases]) rfl (by decide) (by decide) (by simp)
  next hp =>
    rcases awaitWrite_next h with ⟨rfl, hn⟩ | ⟨info, count, rest, he, hc, rfl⟩ | ⟨info, count, rest, he, rfl⟩
    · exact .stays (by simp [busyPhases, hp]) hn
    · exact .wrote hp (by simp [busyPhases]) rfl he hc
    · exact .failed (.inr hp) he rfl
  all_goals cases h

theorem execReadBytes_move {len : Len} {s t : State} (h : execReadBytes len s = .next t) :
    Move (.readBytes len) s t := by
  unfold execReadBytes at h
  split at h
  next hp =>
    rcases accept_next h with ⟨st, info, hf, rfl⟩ | ⟨hf, rfl⟩
    · exact .rejected hp (status_of_lifecycleFault hf)
    · exact .starts (bytes := []) hp (opened_of_channel hf) (by simp [busyPhases]) rfl (by decide) (by decide) (by simp)
  next hp =>
    rcases awaitRead_next h with ⟨rfl, hn⟩ | ⟨info, count, data, rest, he, hc, hd, rfl⟩ | ⟨info, count, data, rest, he, rfl⟩
    · exact .stays (by simp [busyPhases, hp]) hn
    · obtain rfl : count = len := BitVec.eq_of_toNat_eq hc
      exact .got (kept := []) hp (by simp [busyPhases]) rfl he hd
    · exact .failed (.inr hp) he rfl
  all_goals cases h

/-- A next state of `exec` is one of the moves. -/
theorem exec_move {i : Instr} {s t : State} (h : exec i s = .next t) : Move i s t := by
  cases i with
  | bind addr bus => exact execBind_move h
  | close => exact execClose_move h
  | getBus => exact execGetBus_move h
  | getAddr => exact execGetAddr_move h
  | writeBytes len payload => exact execWriteBytes_move h
  | readBytes len => exact execReadBytes_move h
  | readU8 reg delay => exact registerRead_move rfl rfl rfl rfl h
  | readU16Be reg delay => exact registerRead_move rfl rfl rfl rfl h
  | readU16Le reg delay => exact registerRead_move rfl rfl rfl rfl h
  | readS16Be reg delay => exact registerRead_move rfl rfl rfl rfl h
  | readS16Le reg delay => exact registerRead_move rfl rfl rfl rfl h
  | writeU8 reg data => exact registerWrite_move rfl rfl h
  | writeS8 reg data => exact registerWrite_move rfl rfl h
  | writeU16Be reg data => exact registerWrite_move rfl rfl h
  | writeU16Le reg data => exact registerWrite_move rfl rfl h
  | writeS16Be reg data => exact registerWrite_move rfl rfl h
  | writeS16Le reg data => exact registerWrite_move rfl rfl h

/-- Everything a step can answer: what is no command's step, the wait for a command, a word that names no command, the
command at the port, the command in flight. -/
theorem step_next {s t : State} (h : step s = .next t) :
    s.ambient = some t ∨
    (s.ambient = none ∧ s.phase = .idle ∧ s.port = [] ∧ t = s) ∨
    (s.ambient = none ∧ s.phase = .idle ∧ ∃ c rest sub, s.port = c :: rest ∧ decode c.word c.payload = .illegal sub ∧
      t = { s with port := rest }.respond .illegalCommand 0 sub.code []) ∨
    (s.ambient = none ∧ s.phase = .idle ∧ ∃ c rest i, s.port = c :: rest ∧ decode c.word c.payload = .command i ∧
      Move i { s with port := rest } t) ∨
    (s.ambient = none ∧ s.phase ≠ .idle ∧ ∃ i, s.inFlight = some i ∧ Move i s t) := by
  unfold step at h
  split at h
  next u hu => exact .inl (by rw [hu, Host.Outcome.next.inj h])
  next hu =>
    split at h
    next hp =>
      split at h
      next hq => exact .inr (.inl ⟨hu, hp, hq, (Host.Outcome.next.inj h).symm⟩)
      next c rest hq =>
        split at h
        next i hd => exact .inr (.inr (.inr (.inl ⟨hu, hp, c, rest, i, hq, hd, exec_move h⟩)))
        next sub hd => exact .inr (.inr (.inl ⟨hu, hp, c, rest, sub, hq, hd, (Host.Outcome.next.inj h).symm⟩))
    all_goals
      next hp =>
        split at h
        next i hi => exact .inr (.inr (.inr (.inr ⟨hu, by simp [hp], i, hi, exec_move h⟩)))
        next => cases h

end Sys2Proof.Machine
end

