-- ==== Sys2Proof/Laws/Memory.lean ====
section
/-! SUPPORT. The Reference Device's memory: a write keeps the canonical form, is read back, and leaves other addresses alone. -/

namespace Sys2Proof.Machine

/-- A form that holds from an address holds from every lower one. -/
theorem Memory.wfFrom_mono {m : Memory} {lo lo' : Nat} (h : Memory.wfFrom lo m = true) (hl : lo' ≤ lo) :
    Memory.wfFrom lo' m = true := by
  cases m with
  | nil => rfl
  | cons c rest =>
    obtain ⟨k, v⟩ := c
    simp only [Memory.wfFrom, Bool.and_eq_true, decide_eq_true_eq] at h ⊢
    exact ⟨⟨by omega, h.1.2⟩, h.2⟩

/-- A write at or above `lo` keeps the form from `lo`. -/
theorem Memory.wfFrom_write {m : Memory} {lo a : Nat} {b : Byte} (h : Memory.wfFrom lo m = true) (ha : lo ≤ a) :
    Memory.wfFrom lo (m.write a b) = true := by
  induction m generalizing lo with
  | nil =>
    unfold Memory.write
    split
    · rfl
    · simpa [Memory.wfFrom] using ⟨ha, ‹_›⟩
  | cons c rest ih =>
    obtain ⟨k, v⟩ := c
    have hk := h
    simp only [Memory.wfFrom, Bool.and_eq_true, decide_eq_true_eq] at hk
    unfold Memory.write
    split
    · split
      · exact h
      · next hb =>
        simp only [Memory.wfFrom, Bool.and_eq_true, decide_eq_true_eq]
        exact ⟨⟨ha, by simpa using hb⟩, ⟨⟨by omega, hk.1.2⟩, hk.2⟩⟩
    · split
      · split
        · exact Memory.wfFrom_mono hk.2 (by omega)
        · next hb =>
          simp only [Memory.wfFrom, Bool.and_eq_true, decide_eq_true_eq]
          refine ⟨⟨ha, by simpa using hb⟩, ?_⟩
          subst_vars
          exact hk.2
      · simp only [Memory.wfFrom, Bool.and_eq_true, decide_eq_true_eq]
        exact ⟨hk.1, ih hk.2 (by omega)⟩

/-- A write keeps the canonical form. -/
theorem Memory.wf_write {m : Memory} (h : m.wf = true) (a : Nat) (b : Byte) : (m.write a b).wf = true :=
  Memory.wfFrom_write h (Nat.zero_le a)

/-- Below its first address a memory reads 0. -/
theorem Memory.read_below {m : Memory} {lo a : Nat} (h : Memory.wfFrom lo m = true) (ha : a < lo) : m.read a = 0 := by
  induction m generalizing lo with
  | nil => rfl
  | cons c rest ih =>
    obtain ⟨k, v⟩ := c
    simp only [Memory.wfFrom, Bool.and_eq_true, decide_eq_true_eq] at h
    simp only [Memory.read, show ¬ a = k by omega, if_false]
    exact ih h.2 (by omega)

/-- What is read after a write: the byte written at its address, the old byte elsewhere. -/
theorem Memory.read_write {m : Memory} {lo : Nat} (h : Memory.wfFrom lo m = true) (a a' : Nat) (b : Byte) :
    (m.write a b).read a' = if a' = a then b else m.read a' := by
  induction m generalizing lo with
  | nil =>
    unfold Memory.write
    split <;> simp_all [Memory.read]
  | cons c rest ih =>
    obtain ⟨k, v⟩ := c
    simp only [Memory.wfFrom, Bool.and_eq_true, decide_eq_true_eq] at h
    unfold Memory.write
    by_cases h1 : a < k
    · have hz : Memory.read rest a = 0 := Memory.read_below h.2 (by omega)
      by_cases hb : b = 0#8
      · by_cases ha : a' = a
        · simp [h1, hb, ha, Memory.read, show ¬ a = k by omega, hz]
        · simp [h1, hb, ha]
      · simp [h1, hb, Memory.read]
    · by_cases h2 : a = k
      · subst h2
        have hz : Memory.read rest a = 0 := Memory.read_below h.2 (by omega)
        by_cases hb : b = 0#8
        · by_cases ha : a' = a <;> simp [hb, ha, Memory.read, hz]
        · by_cases ha : a' = a <;> simp [hb, ha, Memory.read]
      · by_cases ha : a' = k
        · simp [h1, h2, Memory.read, ha, show ¬ k = a by omega]
        · simp [h1, h2, Memory.read, ha, ih h.2]

end Sys2Proof.Machine
end

