-- ==== Sys2Proof/Laws/PerInstr.lean ====
section
/-! SUPPORT. Statements made for each command as syntax: `OpcodeByte`, that a command's word carries its own row's OP byte and
that the decoder's lookup finds that row. -/

namespace Sys2Proof.Laws.OpcodeByte

/-- The OP byte of the command's word is its row's of R87, and that byte finds the row. -/
def Statement (i : Instr) : Prop := opField i.word = i.op.code ∧ Op.ofCode (opField i.word) = some i.op

/-- Every command has it. -/
theorem all (i : Instr) : Statement i := ⟨opField_word i, by simp⟩

theorem bind (addr : DevAddr) (bus : BusId) : Statement (.bind addr bus) := all _
theorem close : Statement .close := all _
theorem getBus : Statement .getBus := all _
theorem getAddr : Statement .getAddr := all _
theorem writeBytes (len : Len) (payload : List Byte) : Statement (.writeBytes len payload) := all _
theorem readBytes (len : Len) : Statement (.readBytes len) := all _
theorem readU8 (reg : RegAddr) (delay : Ticks) : Statement (.readU8 reg delay) := all _
theorem readU16Be (reg : RegAddr) (delay : Ticks) : Statement (.readU16Be reg delay) := all _
theorem readU16Le (reg : RegAddr) (delay : Ticks) : Statement (.readU16Le reg delay) := all _
theorem readS16Be (reg : RegAddr) (delay : Ticks) : Statement (.readS16Be reg delay) := all _
theorem readS16Le (reg : RegAddr) (delay : Ticks) : Statement (.readS16Le reg delay) := all _
theorem writeU8 (reg : RegAddr) (data : Byte) : Statement (.writeU8 reg data) := all _
theorem writeS8 (reg : RegAddr) (data : Byte) : Statement (.writeS8 reg data) := all _
theorem writeU16Be (reg : RegAddr) (data : Half) : Statement (.writeU16Be reg data) := all _
theorem writeU16Le (reg : RegAddr) (data : Half) : Statement (.writeU16Le reg data) := all _
theorem writeS16Be (reg : RegAddr) (data : Half) : Statement (.writeS16Be reg data) := all _
theorem writeS16Le (reg : RegAddr) (data : Half) : Statement (.writeS16Le reg data) := all _

end Sys2Proof.Laws.OpcodeByte
end

