-- ==== Sys2Proof/Tests/Slice0.lean ====
section
/-! SUPPORT. Small tests with expected values from spec/95_test_vectors.md (V-ENC, V-LIFE, V-RAW, V-CONV, V-RD, V-WR, V-RST,
S1 to S8), and for each obligation with hypotheses the witnesses that meet them. -/

namespace Sys2Proof.Tests

open Sys2Proof.Machine

/-- A channel bound to bus 1, address 0x48, in phase `p`, with `es` arriving. -/
def opened (p : Phase) (es : List Event) : State :=
  { State.reset with lifecycle := .opened, bus := 1, addr := 0x48, phase := p, events := es }

/-- The same channel after CLOSE. -/
def closed : State := { opened .idle [] with lifecycle := .closed }

/-- A command at the port of a state. -/
def withPort (s : State) (i : Instr) : State := { s with port := [encode i] }

/-- A command in flight on the open channel: CMDREG and the outstanding request are the command's. -/
def flying (i : Instr) (p : Phase) (es : List Event) : State :=
  { opened p es with cmdreg := i.word, pending := requestIn i p }

/-- What a step from a state with nothing emitted has emitted. -/
def emitted : Out → List Output
  | .next t => t.outputs
  | _ => []

/-- The response words among what was emitted. -/
def words (o : Out) : List RspWord := (responsesIn (emitted o)).map (·.word)

/-! ### Well-formedness -/

theorem test_wf_writeBytes_short : (Instr.writeBytes 3 [0x01, 0x02]).wf = false := by decide
theorem test_wf_writeBytes_long : (Instr.writeBytes 0 [0x01]).wf = false := by decide
theorem test_wf_writeBytes : (Instr.writeBytes 3 [0x10, 0x01, 0xF4]).wf = true := by decide

/-! ### Decoding and encoding: V-ENC, every row -/

theorem test_decode_lifecycle :
    decode 0x0000000100004801 [] = .command (.bind 0x48 1) ∧ decode 0x0000000000000001 [] = .command (.bind 0 0) ∧
    decode 0xFFFFFFFF00007F01 [] = .command (.bind 127 4294967295) ∧ decode 0x0000000000000002 [] = .command .close ∧
    decode 0x0000000000000003 [] = .command .getBus ∧ decode 0x0000000000000004 [] = .command .getAddr := by decide

theorem test_decode_raw :
    decode 0x0000000000000010 [] = .command (.writeBytes 0 []) ∧
    decode 0x0000000000010010 [0x10] = .command (.writeBytes 1 [0x10]) ∧
    decode 0x0000000000030010 [0x10, 0x01, 0xF4] = .command (.writeBytes 3 [0x10, 0x01, 0xF4]) ∧
    decode 0x0000000000000011 [] = .command (.readBytes 0) ∧ decode 0x0000000000020011 [] = .command (.readBytes 2) ∧
    decode 0x00000000FFFF0011 [] = .command (.readBytes 65535) := by decide

theorem test_decode_reads :
    decode 0x0000000000000020 [] = .command (.readU8 0x00 0) ∧ decode 0x0000000500000020 [] = .command (.readU8 0x00 5) ∧
    decode 0x000000000000FF20 [] = .command (.readU8 0xFF 0) ∧
    decode 0x000003E800001021 [] = .command (.readU16Be 0x10 1000) ∧
    decode 0x0000000000001022 [] = .command (.readU16Le 0x10 0) ∧
    decode 0x0000000000001023 [] = .command (.readS16Be 0x10 0) ∧
    decode 0xFFFFFFFF0000FF24 [] = .command (.readS16Le 0xFF 4294967295) := by decide

theorem test_decode_writes :
    decode 0x0000000000C80030 [] = .command (.writeU8 0x00 200) ∧
    decode 0x0000000000FF0531 [] = .command (.writeS8 0x05 (-1)) ∧
    decode 0x0000000000800531 [] = .command (.writeS8 0x05 (-128)) ∧
    decode 0x0000000001F41032 [] = .command (.writeU16Be 0x10 500) ∧
    decode 0x0000000012342033 [] = .command (.writeU16Le 0x20 0x1234) ∧
    decode 0x0000000080002234 [] = .command (.writeS16Be 0x22 (-32768)) ∧
    decode 0x00000000F4013035 [] = .command (.writeS16Le 0x30 (-3071)) := by decide

theorem test_encode_lifecycle_raw :
    encode (.bind 127 4294967295) = ⟨0xFFFFFFFF00007F01, []⟩ ∧ encode .close = ⟨0x02, []⟩ ∧ encode .getBus = ⟨0x03, []⟩ ∧
    encode .getAddr = ⟨0x04, []⟩ ∧ encode (.writeBytes 1 [0x10]) = ⟨0x0000000000010010, [0x10]⟩ ∧
    encode (.readBytes 65535) = ⟨0x00000000FFFF0011, []⟩ := by decide

theorem test_encode_registers :
    encode (.readU16Be 0x10 1000) = ⟨0x000003E800001021, []⟩ ∧
    encode (.readS16Le 0xFF 4294967295) = ⟨0xFFFFFFFF0000FF24, []⟩ ∧
    encode (.writeS8 0x05 (-128)) = ⟨0x0000000000800531, []⟩ ∧
    encode (.writeS16Le 0x30 (-3071)) = ⟨0x00000000F4013035, []⟩ := by decide

theorem test_reserved_opcodes :
    decode 0x00 [] = .illegal .reservedOpcode ∧ decode 0x05 [] = .illegal .reservedOpcode ∧
    decode 0x25 [] = .illegal .reservedOpcode ∧ decode 0x36 [] = .illegal .reservedOpcode ∧
    decode 0xFF [] = .illegal .reservedOpcode := by decide

theorem test_reserved_bits :
    decode 0x0000000000000102 [] = .illegal .reservedBits ∧ decode 0x0000000100008001 [] = .illegal .reservedBits ∧
    decode 0x0000000100014801 [] = .illegal .reservedBits ∧ decode 0x0000000000011020 [] = .illegal .reservedBits ∧
    decode 0x0000000001000030 [] = .illegal .reservedBits ∧ decode 0x0000000100001032 [] = .illegal .reservedBits ∧
    decode 0x0000000000020110 [0x01, 0x02] = .illegal .reservedBits ∧
    decode 0x0000000100020011 [] = .illegal .reservedBits := by decide

theorem test_payload_mismatch :
    decode 0x0000000000030010 [0x01, 0x02] = .illegal .payloadMismatch ∧
    decode 0x0000000000000020 [0x00] = .illegal .payloadMismatch ∧
    decode 0x0000000000020011 [0x00, 0x00] = .illegal .payloadMismatch := by decide

theorem test_decodeTableWord :
    decodeTableWord 8 0x02 = some .close ∧ decodeTableWord 32 0x0000000000020010 = some (.writeBytes 2 [0, 0]) ∧
    decodeTableWord 64 0x0000000500000020 = some (.readU8 0 5) ∧ decodeTableWord 8 0x25 = none := by decide

/-! ### Assembler forms (R94, R95) -/

theorem test_assemble_signed :
    assemble (.writeS16Le 0x30 (-3071)) = some (.writeS16Le 0x30 0xF401) ∧ assemble (.writeS8 0x05 128) = none := by decide

theorem test_assemble_delay : assemble (.readU16Le 0x10 none) = some (.readU16Le 0x10 0) := by decide

/-- R94's worked encodings, from the lines to the words. -/
theorem test_assemble_worked :
    (assemble (.bind 0x48 1)).map encode = some ⟨0x0000000100004801, []⟩ ∧
    (assemble (.readU16Be 0x10 (some 1000))).map encode = some ⟨0x000003E800001021, []⟩ ∧
    (assemble (.writeS8 0x05 (-1))).map encode = some ⟨0x0000000000FF0531, []⟩ ∧
    (assemble (.writeU16Le 0x20 0x1234)).map encode = some ⟨0x0000000012342033, []⟩ ∧
    (assemble (.writeBytes [0x10, 0x01, 0xF4])).map encode = some ⟨0x0000000000030010, [0x10, 0x01, 0xF4]⟩ := by decide

/-! ### Single steps: V-LIFE, V-RAW -/

theorem test_bind_request :
    emitted (exec (.bind 0x7F 0xFFFFFFFF) State.reset) = [.request (.bind 0xFFFFFFFF 0x7F)] := by decide

theorem test_bind_failed :
    words (exec (.bind 0x48 1) { State.reset with phase := .bindWait, events := [.bindReply true 0xB1D0B1D0] }) =
      [0xB1D0B1D000000001] := by decide

theorem test_bind_twice : words (exec (.bind 0x49 2) (opened .idle [])) = [0x0000000500000004] := by decide

theorem test_close_failed :
    words (exec .close (opened .releaseWait [.releaseReply true 0xEEEE0003])) = [0xEEEE000300000002] := by decide

theorem test_close_twice : emitted (exec .close closed) = [.response ⟨0x0000000000000003, []⟩] := by decide

theorem test_getBus_closed : words (exec .getBus closed) = [0x0000000100000000] := by decide

theorem test_getBus_unbound : words (exec .getBus State.reset) = [0x0000000400000004] := by decide

theorem test_getAddr : words (exec .getAddr (opened .idle [])) = [0x0000004800000000] := by decide

theorem test_writeBytes :
    emitted (exec (.writeBytes 3 [0x10, 0x12, 0x34]) (opened .dataWait [.writeReply false 0 3])) =
      [.trace ⟨.write, 3, [0x10, 0x12, 0x34], none⟩, .response ⟨0x0000000000030000, []⟩] := by decide

theorem test_writeBytes_failed :
    emitted (exec (.writeBytes 1 [0x10]) (opened .dataWait [.writeReply true 0xEEEE0001 1])) =
      [.response ⟨0xEEEE000100010002, []⟩] := by decide

theorem test_readBytes :
    emitted (exec (.readBytes 2) (opened .dataWait [.readReply false 0 2 [0x01, 0xF4]])) =
      [.trace ⟨.read, 2, [0x01, 0xF4], none⟩, .response ⟨0x0000000000020000, [0x01, 0xF4]⟩] := by decide

theorem test_readBytes_failed :
    words (exec (.readBytes 2) (opened .dataWait [.readReply true 0xEEEE0002 0 []])) = [0xEEEE000200000002] := by decide

/-! ### Single steps: V-RD -/

theorem test_readU8_select_failed :
    emitted (exec (.readU8 0x00 7) (opened .selectWait [.writeReply true 0xEEEE0001 0])) =
      [.response ⟨0xEEEE000100000002, []⟩] := by decide

theorem test_readU8 :
    emitted (exec (.readU8 0x00 5) (opened .dataWait [.readReply false 0 1 [0xC8]])) =
      [.trace ⟨.read, 1, [0xC8], some 5⟩, .response ⟨0x000000C800000000, []⟩] := by decide

theorem test_readU16Be :
    words (exec (.readU16Be 0x10 0) (opened .dataWait [.readReply false 0 2 [0x01, 0xF4]])) = [0x000001F400000000] := by decide

theorem test_readU16Be_failed :
    emitted (exec (.readU16Be 0x10 0) (opened .dataWait [.readReply true 0xEEEE0002 0 []])) =
      [.response ⟨0xEEEE000200000002, []⟩] := by decide

theorem test_readU16Le :
    words (exec (.readU16Le 0x10 0) (opened .dataWait [.readReply false 0 2 [0x01, 0xF4]])) = [0x0000F40100000000] := by decide

theorem test_readS16Be :
    words (exec (.readS16Be 0x22 0) (opened .dataWait [.readReply false 0 2 [0x80, 0x00]])) = [0xFFFF800000000000] := by decide

theorem test_readS16Le :
    words (exec (.readS16Le 0x10 0) (opened .dataWait [.readReply false 0 2 [0x01, 0xF4]])) = [0xFFFFF40100000000] := by decide

theorem test_readS16Le_positive :
    words (exec (.readS16Le 0x10 0) (opened .dataWait [.readReply false 0 2 [0x80, 0x00]])) = [0x0000008000000000] := by decide

/-! ### Single steps: V-WR -/

theorem test_writeU8 : emitted (exec (.writeU8 0x00 200) (opened .idle [])) = [.request (.write [0x00, 0xC8])] := by decide

theorem test_writeU8_failed :
    emitted (exec (.writeU8 0x00 200) (opened .dataWait [.writeReply true 0xEEEE0001 0])) =
      [.response ⟨0xEEEE000100000002, []⟩] := by decide

theorem test_writeS8 : emitted (exec (.writeS8 0x05 (-128)) (opened .idle [])) = [.request (.write [0x05, 0x80])] := by decide

theorem test_writeU16Be :
    emitted (exec (.writeU16Be 0x10 500) (opened .idle [])) = [.request (.write [0x10, 0x01, 0xF4])] := by decide

theorem test_writeU16Be_done :
    emitted (exec (.writeU16Be 0x10 500) (opened .dataWait [.writeReply false 0 3])) =
      [.trace ⟨.write, 3, [0x10, 0x01, 0xF4], none⟩, .response ⟨0x0000000000000000, []⟩] := by decide

theorem test_writeU16Le :
    emitted (exec (.writeU16Le 0x10 0xAB00) (opened .idle [])) = [.request (.write [0x10, 0x00, 0xAB])] := by decide

theorem test_writeS16Be :
    emitted (exec (.writeS16Be 0x22 (-32768)) (opened .idle [])) = [.request (.write [0x22, 0x80, 0x00])] := by decide

theorem test_writeS16Le :
    emitted (exec (.writeS16Le 0x22 (-2)) (opened .idle [])) = [.request (.write [0x22, 0xFE, 0xFF])] := by decide

/-! ### The step -/

theorem test_withFetchWord_runs_first :
    words (step (State.reset.withFetchWord 64 0x0000000000000003)) = [0x0000000400000004] := by decide

theorem test_decode_before_lifecycle :
    words (step { closed with port := [⟨0x0000000000000005, []⟩] }) = [0x0000000100000004] := by decide

theorem test_reset_in_settle :
    emitted (step { flying (.readU8 0x00 5) .settle [.reset] with tmr := 3 }) = [] := by decide

/-- R241, U15: an unanswered TWrite was abandoned; its reply is discarded before the BIND that waits at the port. -/
theorem test_late_reply_discarded :
    step { withPort State.reset (.bind 0x48 1) with abandoned := [.write [0x10]], events := [.writeReply false 0 1] } =
      .next (withPort State.reset (.bind 0x48 1)) := rfl

/-- The same reply with nothing abandoned is the coming command's: the BIND is taken first (log entry 2). -/
theorem test_reply_not_late :
    emitted (step { withPort State.reset (.bind 0x48 1) with events := [.bindReply false 0] }) =
      [.request (.bind 1 0x48)] := by decide

theorem test_reply_breaking_contract :
    step (flying (.readBytes 2) .dataWait [.readReply false 0 1 [0x01]]) = .refused .brokenTransportContract := rfl

/-! ### The Reference Device (R73): S1, V-RD 8 -/

theorem test_device_store :
    ((RefDevice.mk [] 0 false false false false).answer (.write [0x20, 0x34, 0x12])).1 =
      ⟨[(0x20, 0x34), (0x21, 0x12)], 0x20, false, false, false, false⟩ := by decide

theorem test_device_wraps :
    ((RefDevice.mk [(0, 0xC8), (255, 0x7E)] 0xFF false false false false).answer (.read 2)).2 =
      .readReply false 0 2 [0x7E, 0xC8] := by decide

/-! ### Witnesses: encoding and acceptance -/

theorem witness_DecodeEncodeRoundTrip : (Instr.writeBytes 0 []).wf = true ∧ (Instr.writeBytes 2 [1, 2]).wf = true := by decide

theorem witness_DecodedWordIsEncoding : decode 0xFFFFFFFF0000FF24 [] = .command (.readS16Le 0xFF 0xFFFFFFFF) := by decide

theorem witness_Classifies_opcode : ∀ r ∈ opcodeRows, (0x36 : CmdWord).extractLsb' 0 8 ≠ r.1 := by simp [opcodeRows]

theorem witness_Classifies_bits :
    (0x01, 0x00000000FFFF8000) ∈ opcodeRows ∧ (0x8001 : CmdWord).extractLsb' 0 8 = 0x01 ∧
    (0x8001 : CmdWord) &&& 0x00000000FFFF8000 ≠ 0 := by decide

theorem witness_Classifies_payload :
    (0x10, 0xFFFFFFFF0000FF00) ∈ opcodeRows ∧ (0x00030010 : CmdWord).extractLsb' 0 8 = 0x10 ∧
    (0x00030010 : CmdWord) &&& 0xFFFFFFFF0000FF00 = 0 ∧
    ([1, 2] : List Byte).length ≠ ((0x00030010 : CmdWord).extractLsb' 16 16).toNat ∧
    ([1, 2, 3] : List Byte).length = ((0x00030010 : CmdWord).extractLsb' 16 16).toNat := by decide

theorem witness_IllegalCommandsRejected :
    ∃ (s : State) (c : Command) (rest : List Command), s.phase = .idle ∧ s.port = c :: rest ∧
      s.portFirst = true ∧ decode c.word c.payload = .illegal .reservedBits :=
  ⟨{ closed with port := [⟨0x0102, []⟩] }, _, _, rfl, rfl, rfl, by decide⟩

theorem witness_ClosedChannelRejects : closed.phase = .idle ∧ closed.lifecycle = .closed := by decide

theorem witness_NoChannelAndAlreadyBoundReject :
    (∀ addr bus, Instr.close ≠ .bind addr bus) ∧ State.reset.phase = .idle ∧ State.reset.lifecycle = .unbound ∧
    (opened .idle []).phase = .idle ∧ (opened .idle []).lifecycle = .opened :=
  ⟨by simp, rfl, rfl, rfl, rfl⟩

/-! ### Witnesses: the effects of commands -/

theorem witness_accepting_states :
    (State.reset.phase = .idle ∧ State.reset.lifecycle = .unbound) ∧
    ((opened .idle []).phase = .idle ∧ (opened .idle []).lifecycle = .opened) ∧
    (closed.phase = .idle ∧ closed.lifecycle = .closed) := by decide

theorem witness_BindEffect_ok :
    ∃ (s : State) (info : Info) (rest : List Event), s.phase = .bindWait ∧ s.events = .bindReply false info :: rest :=
  ⟨{ State.reset with phase := .bindWait, events := [.bindReply false 0] }, 0, [], rfl, rfl⟩

theorem witness_BindEffect_error :
    ∃ (s : State) (info : Info) (rest : List Event), s.phase = .bindWait ∧ s.events = .bindReply true info :: rest :=
  ⟨{ State.reset with phase := .bindWait, events := [.bindReply true 0xFFFFFFFF] }, 0xFFFFFFFF, [], rfl, rfl⟩

theorem witness_CloseEffect_ok :
    ∃ (s : State) (info : Info) (rest : List Event), s.phase = .releaseWait ∧ s.events = .releaseReply false info :: rest :=
  ⟨flying .close .releaseWait [.releaseReply false 0], 0, [], rfl, rfl⟩

theorem witness_CloseEffect_error :
    ∃ (s : State) (info : Info) (rest : List Event), s.phase = .releaseWait ∧ s.events = .releaseReply true info :: rest :=
  ⟨flying .close .releaseWait [.releaseReply true 0xEEEE0003], 0xEEEE0003, [], rfl, rfl⟩

theorem witness_WriteBytesEffect_ok :
    ∃ (payload : List Byte) (s : State) (info : Info) (count : Len) (rest : List Event), s.phase = .dataWait ∧
      s.events = .writeReply false info count :: rest ∧ count.toNat = payload.length :=
  ⟨[], flying (.writeBytes 0 []) .dataWait [.writeReply false 0 0], 0, 0, [], rfl, rfl, rfl⟩

theorem witness_WriteBytesEffect_error :
    ∃ (s : State) (info : Info) (count : Len) (rest : List Event), s.phase = .dataWait ∧
      s.events = .writeReply true info count :: rest :=
  ⟨flying (.writeBytes 1 [0x10]) .dataWait [.writeReply true 0xEEEE0001 1], 0xEEEE0001, 1, [], rfl, rfl⟩

theorem witness_ReadBytesEffect_ok :
    ∃ (len : Len) (s : State) (info : Info) (data : List Byte) (rest : List Event), s.phase = .dataWait ∧
      s.events = .readReply false info len data :: rest ∧ data.length = len.toNat :=
  ⟨0, flying (.readBytes 0) .dataWait [.readReply false 0 0 []], 0, [], [], rfl, rfl, rfl⟩

theorem witness_ReadBytesEffect_error :
    ∃ (s : State) (info : Info) (count : Len) (data : List Byte) (rest : List Event), s.phase = .dataWait ∧
      s.events = .readReply true info count data :: rest :=
  ⟨flying (.readBytes 2) .dataWait [.readReply true 0xEEEE0002 1 [7]], 0xEEEE0002, 1, [7], [], rfl, rfl⟩

theorem witness_registerReads : ∀ i ∈ [Instr.readU8 1 2, .readU16Be 1 2, .readU16Le 1 2, .readS16Be 1 2, .readS16Le 1 2],
    i ∈ (registerReads 1 2).map (·.1) := by decide

theorem witness_registerWrites :
    ∀ i ∈ [Instr.writeU8 1 2, .writeS8 1 2, .writeU16Be 1 3, .writeU16Le 1 3, .writeS16Be 1 3, .writeS16Le 1 3],
    i ∈ (registerWrites 1 2 3 ⟨7, 8, 9⟩).map (·.1) := by decide

/-- V-WR: `WRITE_U8 0x00, 200` and `WRITE_U16_BE 0x10, 500` as BUF holds their frames (R23). -/
theorem test_frames_in_buf :
    (registerWrites 0x00 200 0 ⟨7, 8, 9⟩).head? = some (.writeU8 0x00 200, [0x00, 0xC8], ⟨0x00, 0xC8, 9⟩) ∧
    (.writeU16Be 0x10 500, [0x10, 0x01, 0xF4], ⟨0x10, 0x01, 0xF4⟩) ∈ registerWrites 0x10 0 500 ⟨7, 8, 9⟩ := by decide

theorem witness_ReadSelectsRegister_ok :
    ∃ (s : State) (info : Info) (rest : List Event), s.phase = .selectWait ∧ s.events = .writeReply false info 1 :: rest :=
  ⟨flying (.readU8 0xFF 0xFFFFFFFF) .selectWait [.writeReply false 0 1], 0, [], rfl, rfl⟩

theorem witness_ReadSelectsRegister_error :
    ∃ (s : State) (info : Info) (count : Len) (rest : List Event), s.phase = .selectWait ∧
      s.events = .writeReply true info count :: rest :=
  ⟨flying (.readU8 0 7) .selectWait [.writeReply true 0xEEEE0001 0], 0xEEEE0001, 0, [], rfl, rfl⟩

theorem witness_ReadSettles_zero : ∃ s : State, s.phase = .settle ∧ s.tmr = 0 :=
  ⟨flying (.readU8 0 0) .settle [], rfl, rfl⟩

theorem witness_ReadSettles_tick :
    ∃ (s : State) (rest : List Event), s.phase = .settle ∧ s.tmr ≠ 0 ∧ s.events = .tick :: rest :=
  ⟨{ flying (.readU8 0 1) .settle [.tick] with tmr := 1 }, [], rfl, by decide, rfl⟩

theorem witness_ReadSettles_waits : ∃ s : State, s.phase = .settle ∧ s.tmr ≠ 0 ∧ s.events = [] :=
  ⟨{ flying (.readU8 0 1) .settle [] with tmr := 0xFFFFFFFF }, rfl, by decide, rfl⟩

theorem witness_ReadU8Result :
    ∃ (s : State) (info : Info) (b0 : Byte) (rest : List Event), s.phase = .dataWait ∧
      s.events = .readReply false info 1 [b0] :: rest :=
  ⟨flying (.readU8 0 0) .dataWait [.readReply false 0 1 [0xFF]], 0, 0xFF, [], rfl, rfl⟩

theorem witness_ReadWordResults :
    ∃ (s : State) (info : Info) (b0 b1 : Byte) (rest : List Event), s.phase = .dataWait ∧
      s.events = .readReply false info 2 [b0, b1] :: rest :=
  ⟨flying (.readS16Le 0 0) .dataWait [.readReply false 0 2 [0x7F, 0x80]], 0, 0x7F, 0x80, [], rfl, rfl⟩

theorem witness_WriteReplyEnds_ok :
    ∃ (s : State) (info : Info) (count : Len) (rest : List Event), s.phase = .dataWait ∧
      s.events = .writeReply false info count :: rest ∧ count.toNat = ([0x10, 0x01, 0xF4] : List Byte).length :=
  ⟨flying (.writeU16Be 0x10 500) .dataWait [.writeReply false 0 3], 0, 3, [], rfl, rfl, rfl⟩

theorem witness_WriteReplyEnds_error :
    ∃ (s : State) (info : Info) (count : Len) (rest : List Event), s.phase = .dataWait ∧
      s.events = .writeReply true info count :: rest :=
  ⟨flying (.writeS16Le 0xFF 0x8000) .dataWait [.writeReply true 0 0xFFFF], 0, 0xFFFF, [], rfl, rfl⟩

theorem witness_ReadDataFailure :
    ∃ (s : State) (info : Info) (count : Len) (data : List Byte) (rest : List Event), s.phase = .dataWait ∧
      s.events = .readReply true info count data :: rest :=
  ⟨flying (.readU8 0 0) .dataWait [.readReply true 0xEEEE0002 3 [1, 2, 3]], 0xEEEE0002, 3, [1, 2, 3], [], rfl, rfl⟩

theorem witness_WriteSendsOneFrame : (opened .idle []).phase = .idle ∧ (opened .idle []).lifecycle = .opened := by decide

/-! ### Witnesses: the step and the invariants -/

theorem witness_StepRunsCommand_idle :
    ∃ (s : State) (c : Command) (rest : List Command) (i : Instr), s.phase = .idle ∧ s.port = c :: rest ∧
      s.portFirst = true ∧ decode c.word c.payload = .command i :=
  ⟨{ withPort (opened .idle [.readReply true 0 0 []]) (.readU8 0 5) with abandoned := [.release] }, _, _, .readU8 0 5, rfl, rfl,
    rfl, by decide⟩

theorem witness_StepRunsCommand_busy :
    ∃ (s : State) (i : Instr), s.phase ≠ .idle ∧ s.ambient = none ∧ s.inFlight = some i :=
  ⟨flying (.writeBytes 2 [5, 6]) .dataWait [.writeReply false 0 2], .writeBytes 2 [5, 6], by decide, by decide, by decide⟩

theorem witness_ResetInputAbandons :
    ∃ (s : State) (rest : List Event), s.phase = .settle ∧ s.events = .reset :: rest :=
  ⟨flying (.readU8 0 5) .settle [.reset], [], rfl, rfl⟩

theorem witness_LateReplyDiscarded :
    ∃ (s : State) (r : Request) (e : Event) (rest : List Event), s.pending = some r ∧ r.repliedBy e = true ∧
      s.events = .reset :: e :: rest ∧ s.port ≠ [] :=
  ⟨withPort (flying (.readU16Be 0x10 3) .dataWait [.reset, .readReply true 1 0 []]) .close, _, _, [], rfl, rfl, rfl, by decide⟩

theorem witness_LateReplyDiscarded_change :
    (∃ s t : State, step s = .next t ∧ s.events = [.reset] ∧ t.abandoned ≠ s.abandoned) ∧
    ∃ s t : State, step s = .next t ∧ s.events = [.bindReply false 0] ∧ t.abandoned ≠ s.abandoned :=
  ⟨⟨flying (.readU16Be 0x10 3) .dataWait [.reset], _, rfl, rfl, by decide⟩,
    ⟨{ State.reset with abandoned := [.bind 1 0x48], events := [.bindReply false 0] }, _, rfl, rfl, by decide⟩⟩

theorem witness_IdleWaitsForCommand :
    (State.reset.phase = .idle ∧ State.reset.port = [] ∧ State.reset.events = []) ∧
    ∃ (s : State) (c : Command) (rest : List Event), s.phase = .idle ∧ s.port = [] ∧ s.events = .present c :: rest :=
  ⟨by decide, opened .idle [.present ⟨0x02, []⟩], _, [], rfl, rfl, rfl⟩

theorem witness_held_dataWait : (flying (.readU16Be 0x10 3) .dataWait []).CommandHeld :=
  .inr ⟨.readU16Be 0x10 3, by decide, by decide, rfl⟩

theorem witness_WaitsWithoutReply :
    ∃ s : State, s.CommandHeld ∧ s.events = [] ∧ s.phase.waits = true :=
  ⟨flying (.readU16Be 0x10 3) .dataWait [], witness_held_dataWait, rfl, rfl⟩

theorem witness_PortHeldWhileBusy :
    ∃ s t : State, s.phase ≠ .idle ∧ step s = .next t :=
  ⟨withPort (flying (.readU16Be 0x10 3) .dataWait [.present ⟨0x02, []⟩]) .close, _, by decide, rfl⟩

theorem witness_TicksAndStale_tick :
    ∃ (s : State) (rest : List Event), s.events = .tick :: rest ∧ s.phase ≠ .settle ∧ (s.phase ≠ .idle ∨ s.port = []) :=
  ⟨opened .idle [.tick], [], rfl, by decide, .inr rfl⟩

theorem witness_TicksAndStale_late :
    ∃ (s : State) (e : Event) (rest : List Event), s.events = e :: rest ∧ e.isReply = true ∧ s.phase = .idle ∧ s.port ≠ [] ∧
      s.isLate e = true :=
  ⟨{ withPort (opened .idle [.releaseReply true 1]) .getBus with abandoned := [.release] }, _, [], rfl, rfl, rfl, by decide, rfl⟩

theorem witness_TicksAndStale_reply :
    ∃ (s : State) (e : Event) (rest : List Event), s.events = e :: rest ∧ e.isReply = true ∧ s.phase = .idle ∧ s.port = [] :=
  ⟨opened .idle [.releaseReply true 1], _, [], rfl, rfl, rfl, rfl⟩

theorem witness_Inv_settle : ({ flying (.readU8 0 5) .settle [.tick] with tmr := 5 } : State).Inv := by
  unfold State.Inv; decide

theorem witness_StepKeepsInvariant : ∃ s t : State, s.Inv ∧ step s = .next t :=
  ⟨_, _, witness_Inv_settle, rfl⟩

theorem witness_StepKeepsCommandHeld : ∃ s t : State, s.CommandHeld ∧ s.phase ≠ .idle ∧ step s = .next t :=
  ⟨flying (.readU16Be 0x10 3) .dataWait [], _, witness_held_dataWait, by decide, rfl⟩

theorem witness_StepGoesOn_kept :
    ∃ s : State, s.CommandHeld ∧ s.wellAnswered = true ∧ s.events ≠ [] :=
  ⟨flying (.readU16Be 0x10 3) .dataWait [.readReply false 0 2 [1, 2]], .inr ⟨.readU16Be 0x10 3, by decide, by decide, rfl⟩,
    by decide, by decide⟩

theorem witness_StepGoesOn_broken : ∃ s : State, s.CommandHeld ∧ s.wellAnswered = false :=
  ⟨flying (.readU16Be 0x10 3) .dataWait [.readReply false 0 2 [1]], .inr ⟨.readU16Be 0x10 3, by decide, by decide, rfl⟩, by decide⟩

/-- An unbound block with its bind outstanding and its reply arriving. -/
def binding (e : Event) : State :=
  { State.reset with
    phase := .bindWait, cmdreg := (Instr.bind 0x48 1).word, pending := some (.bind 1 0x48), events := [e] }

theorem witness_binding :
    ∀ e ∈ [Event.bindReply false 0, .bindReply true 7, .reset], (binding e).Inv ∧ (binding e).CommandHeld := by
  intro e he
  simp only [List.mem_cons, List.not_mem_nil, or_false] at he
  rcases he with rfl | rfl | rfl <;>
    exact ⟨by unfold State.Inv; decide, .inr ⟨.bind 0x48 1, by decide, by decide, rfl⟩⟩

theorem witness_Lifecycle_bind_ok :
    ∃ s t : State, s.Inv ∧ s.CommandHeld ∧ step s = .next t ∧ s.phase = .bindWait ∧ s.events = [.bindReply false 0] :=
  ⟨binding (.bindReply false 0), _, (witness_binding _ (by simp)).1, (witness_binding _ (by simp)).2, rfl, rfl, rfl⟩

theorem witness_Lifecycle_bind_error :
    ∃ s t : State, s.Inv ∧ s.CommandHeld ∧ step s = .next t ∧ s.phase = .bindWait ∧ s.events = [.bindReply true 7] :=
  ⟨binding (.bindReply true 7), _, (witness_binding _ (by simp)).1, (witness_binding _ (by simp)).2, rfl, rfl, rfl⟩

theorem witness_Lifecycle_reset :
    ∃ s t : State, s.Inv ∧ s.CommandHeld ∧ step s = .next t ∧ s.events = [.reset] :=
  ⟨binding .reset, _, (witness_binding _ (by simp)).1, (witness_binding _ (by simp)).2, rfl, rfl⟩

theorem witness_Lifecycle_close :
    ∃ s t : State, s.Inv ∧ s.CommandHeld ∧ step s = .next t ∧ s.phase = .releaseWait ∧ s.events = [.releaseReply true 1] :=
  ⟨flying .close .releaseWait [.releaseReply true 1], _, by unfold State.Inv; decide,
    .inr ⟨.close, by decide, by decide, rfl⟩, rfl, rfl, rfl⟩

theorem witness_BindingFixedForLifetime :
    ∃ s t : State, s.Inv ∧ s.lifecycle ≠ .unbound ∧ (∀ rest, s.events ≠ .reset :: rest) ∧ step s = .next t :=
  ⟨withPort closed (.bind 0x49 2), _, by unfold State.Inv; decide, by decide, by simp [withPort, closed, opened], rfl⟩

theorem witness_OneResponse :
    (∃ s t : State, step s = .next t ∧ ∀ rest, s.events ≠ .reset :: rest) ∧
    ∃ (s t : State) (rest : List Event), step s = .next t ∧ s.events = .reset :: rest :=
  ⟨⟨withPort (opened .idle []) .getBus, _, rfl, by simp [withPort, opened]⟩, ⟨binding .reset, _, [], rfl, rfl⟩⟩

theorem witness_OneRequestOutstanding : ∃ s t : State, s.Inv ∧ step s = .next t ∧ t.pending ≠ none :=
  ⟨withPort (opened .idle []) (.readBytes 65535), _, by unfold State.Inv; decide, rfl, by decide⟩

theorem witness_NoTransportRequestUnlessOpen :
    (∃ s t : State, s.Inv ∧ s.lifecycle = .closed ∧ step s = .next t) ∧
    ∃ s t : State, s.Inv ∧ s.lifecycle = .unbound ∧ s.port ≠ [] ∧ step s = .next t :=
  ⟨⟨withPort closed .close, _, by unfold State.Inv; decide, rfl, rfl⟩,
    ⟨withPort State.reset (.bind 0x48 1), _, by unfold State.Inv; decide, rfl, by decide, rfl⟩⟩

theorem witness_Trace_write :
    ∃ s t : State, s.CommandHeld ∧ step s = .next t ∧ s.phase.waits = true ∧ s.events = [.writeReply false 0 1] :=
  ⟨flying (.readU8 9 0) .selectWait [.writeReply false 0 1], _, .inr ⟨.readU8 9 0, by decide, by decide, rfl⟩, rfl, rfl, rfl⟩

theorem witness_Trace_read :
    ∃ s t : State, s.CommandHeld ∧ step s = .next t ∧ s.phase.waits = true ∧ s.events = [.readReply false 0 1 [8]] :=
  ⟨flying (.readU8 9 0) .dataWait [.readReply false 0 1 [8]], _, .inr ⟨.readU8 9 0, by decide, by decide, rfl⟩, rfl, rfl, rfl⟩

theorem witness_Trace_none :
    ∃ s t : State, s.CommandHeld ∧ step s = .next t ∧ s.phase.waits = true ∧ s.events = [.writeReply true 0 0] :=
  ⟨flying (.readU8 9 0) .selectWait [.writeReply true 0 0], _, .inr ⟨.readU8 9 0, by decide, by decide, rfl⟩, rfl, rfl, rfl⟩

theorem witness_OutputsNeverRead :
    (∃ s t : State, step s = .next t) ∧ (∃ (s : State) (f : Fault), step s = .fault f) ∧
    ∃ (s : State) (r : Refusal), step s = .refused r :=
  ⟨⟨State.reset, _, rfl⟩, ⟨opened .settle [], .noCommandInFlight, rfl⟩,
    ⟨flying (.readBytes 2) .dataWait [.releaseReply false 0], .replyNotAwaited, rfl⟩⟩

/-! ### Witnesses: whole commands, frames, the device -/

theorem witness_RegisterReadRun :
    ∃ (s : State) (c : Command) (later : List Command) (data : List Byte), s.phase = .idle ∧ s.lifecycle = .opened ∧
      s.port = c :: later ∧ s.portFirst = true ∧ decode c.word c.payload = .command (.readU16Be 0x10 2) ∧ data.length = (2 : Len).toNat ∧
      s.events = .writeReply false 0 1 :: (List.replicate (2 : Ticks).toNat .tick ++ [.readReply false 0 2 data]) :=
  ⟨withPort (opened .idle [.writeReply false 0 1, .tick, .tick, .readReply false 0 2 [1, 0xF4]]) (.readU16Be 0x10 2),
    _, _, [1, 0xF4], rfl, rfl, rfl, rfl, by decide, rfl, rfl⟩

theorem witness_RegisterReadFailures :
    (∃ (s : State) (c : Command) (later : List Command), s.phase = .idle ∧ s.lifecycle = .opened ∧ s.port = c :: later ∧
      s.portFirst = true ∧ decode c.word c.payload = .command (.readU8 0 7) ∧ s.events = [.writeReply true 1 0]) ∧
    ∃ (s : State) (c : Command) (later : List Command), s.phase = .idle ∧ s.lifecycle = .opened ∧ s.port = c :: later ∧
      s.portFirst = true ∧ decode c.word c.payload = .command (.readU8 0 0) ∧
      s.events = .writeReply false 0 1 :: (List.replicate (0 : Ticks).toNat .tick ++ [.readReply true 1 0 []]) :=
  ⟨⟨withPort (opened .idle [.writeReply true 1 0]) (.readU8 0 7), _, _, rfl, rfl, rfl, rfl, by decide, rfl⟩,
    ⟨withPort (opened .idle [.writeReply false 0 1, .readReply true 1 0 []]) (.readU8 0 0), _, _, rfl, rfl, rfl, rfl, by decide, rfl⟩⟩

theorem witness_RegisterWriteRun (err : Bool) :
    ∃ (s : State) (c : Command) (later : List Command), s.phase = .idle ∧ s.lifecycle = .opened ∧ s.port = c :: later ∧
      s.portFirst = true ∧ decode c.word c.payload = .command (.writeS16Le 0x22 (-2)) ∧ s.events = [.writeReply err 0 3] :=
  ⟨withPort (opened .idle [.writeReply err 0 3]) (.writeS16Le 0x22 (-2)), _, _, rfl, rfl, rfl, rfl, by decide, rfl⟩

theorem witness_LifecycleAndRawRuns :
    decode (encode (.bind 0x48 1)).word [] = .command (.bind 0x48 1) ∧ decode (encode .close).word [] = .command .close ∧
    decode (encode (.writeBytes 1 [9])).word [9] = .command (.writeBytes 1 [9]) ∧
    decode (encode (.readBytes 1)).word [] = .command (.readBytes 1) ∧
    (withPort (opened .idle [.releaseReply false 0]) .close).port = [encode .close] ∧
    (withPort (opened .idle [.releaseReply false 0]) .close).portFirst = true ∧
    (withPort (opened .idle [.releaseReply false 0]) .close).events = [.releaseReply false 0] ∧
    (withPort { State.reset with events := [.bindReply false 0] } (.bind 0x48 1)).lifecycle = .unbound ∧
    (withPort (opened .idle [.writeReply false 0 1]) (.writeBytes 1 [9])).events = [.writeReply false 0 1] ∧
    (withPort (opened .idle [.readReply false 0 1 [7]]) (.readBytes 1)).events = [.readReply false 0 1 [7]] := by decide

theorem witness_WordReadsShareWire :
    ∃ t, exec (.readU16Be 1 2) { opened .settle [.tick] with cmdreg := 7, tmr := 1 } = .next t := ⟨_, rfl⟩

theorem witness_SignedWritesEqualUnsigned :
    ∃ t, exec (.writeU16Le 1 0xFFFE) { opened .idle [] with cmdreg := 7 } = .next t := ⟨_, rfl⟩

theorem witness_SwapInvolution : swap16 0xABAB = 0xABAB ∧ swap16 0x1234 = 0x3412 := by decide

theorem witness_FrameOfRegisterReads :
    ∃ s t : State, s.phase = .dataWait ∧ exec (.readS16Be 1 2) s = .next t ∧ t.buf ≠ s.buf :=
  ⟨opened .dataWait [.readReply false 0 2 [1, 2]], _, rfl, rfl, by decide⟩

theorem witness_FrameOfWritesAndRaw :
    (∃ s t : State, s.phase = .dataWait ∧ exec (.writeS8 1 2) s = .next t) ∧
    ∃ s t : State, s.phase = .dataWait ∧ exec (.readBytes 0) s = .next t :=
  ⟨⟨opened .dataWait [.writeReply false 0 2], _, rfl, rfl⟩, ⟨opened .dataWait [.readReply false 0 0 []], _, rfl, rfl⟩⟩

theorem witness_FrameOfLifecycleCommands :
    (∃ s t : State, exec (.bind 1 2) s = .next t ∧ s.phase = .bindWait) ∧ (∃ s t : State, exec .close s = .next t) ∧
    ∃ s t : State, exec .getAddr s = .next t :=
  ⟨⟨binding (.bindReply false 0), _, rfl, rfl⟩, ⟨opened .idle [], _, rfl⟩, ⟨closed, _, rfl⟩⟩

theorem witness_LoopbackRoundTrip :
    (RefDevice.mk [(3, 9)] 0 false false true true).mem.wf = true ∧
    requestIn (.writeU16Le 0xFF 0x1234) .dataWait = some (.write [0xFF, 0x34, 0x12]) ∧
    requestIn (.readU16Le 0xFF 0) .selectWait = some (.write [0xFF]) ∧
    requestIn (.readU16Le 0xFF 0) .dataWait = some (.read 2) ∧
    (((((RefDevice.mk [(3, 9)] 0 false false true true).answer (.write [0xFF, 0x34, 0x12])).1.answer
      (.write [0xFF])).1).answer (.read 2)).2 = .readReply false 0 2 [0x34, 0x12] := by decide

theorem witness_DeviceKeepsCanonicalMemory :
    Memory.wf [(0, 1), (255, 2)] = true ∧ Memory.wf [(0, 0)] = false ∧ Memory.wf [(1, 1), (0, 1)] = false := by decide

theorem witness_AssembledCommandsEncode :
    assemble (.writeBytes [255, 0]) = some (.writeBytes 2 [255, 0]) ∧ assemble (.readS16Le 255 none) = some (.readS16Le 255 0) ∧
    assemble (.writeU8 0 255) = some (.writeU8 0 255) ∧ assemble (.writeS16Be 0 (-32768)) = some (.writeS16Be 0 0x8000) := by
  decide

theorem witness_AssemblerRanges :
    assemble (.bind 127 4294967295) ≠ none ∧ assemble (.bind 128 0) = none ∧ assemble (.writeU16Le 0 65536) = none ∧
    assemble (.writeS16Le 0 (-32769)) = none ∧ assemble (.readU8 256 none) = none := by decide

end Sys2Proof.Tests
end

section
/-! SUPPORT. A word and payload that decode are their command's own. -/

namespace Sys2Proof

/-- The operands taken from a word's fields make that word again, where its reserved bits are clear (R89, R92). -/
theorem Op.build_word {o : Op} {w : CmdWord} (p : List Byte) (ho : o.code = opField w)
    (hm : w &&& o.format.reservedMask = 0) : (o.build w p).word = w := by
  cases o with
  | bind => simpa [Op.build, Instr.word, Instr.op, ho] using wordB_of_reserved hm
  | close | getBus | getAddr => simpa [Op.build, Instr.word, Instr.op, ho] using wordN_of_reserved hm
  | writeBytes | readBytes => simpa [Op.build, Instr.word, Instr.op, ho] using wordX_of_reserved hm
  | readU8 | readU16Be | readU16Le | readS16Be | readS16Le =>
    simpa [Op.build, Instr.word, Instr.op, ho] using wordR_of_reserved hm
  | writeU8 | writeS8 => simpa [Op.build, Instr.word, Instr.op, ho] using wordW8_of_reserved hm
  | writeU16Be | writeU16Le | writeS16Be | writeS16Le =>
    simpa [Op.build, Instr.word, Instr.op, ho] using wordW16_of_reserved hm

theorem Op.build_payload {o : Op} {w : CmdWord} {p : List Byte} (h : p.length = payloadLength o w) :
    (o.build w p).payload = p := by
  cases o with
  | writeBytes => rfl
  | _ => exact (List.length_eq_zero_iff.mp h).symm

theorem Op.build_wf {o : Op} {w : CmdWord} {p : List Byte} (h : p.length = payloadLength o w) :
    (o.build w p).wf = true := by
  cases o with
  | writeBytes => exact beq_iff_eq.mpr h
  | _ => rfl

/-- A word that decodes is its command's own word, with the command's payload (R89, R92). -/
theorem decode_command {w : CmdWord} {p : List Byte} {i : Instr} (h : decode w p = .command i) :
    i.wf = true ∧ i.word = w ∧ i.payload = p := by
  unfold decode at h
  split at h
  next => cases h
  next o ho =>
    split at h
    next => cases h
    next hm =>
      split at h
      next => cases h
      next hl =>
        obtain rfl := Decoded.command.inj h
        exact ⟨Op.build_wf (not_not.mp hl), Op.build_word p (Op.code_of_ofCode ho) (not_not.mp hm),
          Op.build_payload (not_not.mp hl)⟩

end Sys2Proof
end

section
/-! SUPPORT. The layer the proofs about steps use: kinds of event, what the step takes first, the responses emitted. -/

namespace Sys2Proof.Machine

/-! ### Events -/

/-- Whether an event presents a command (R246). -/
def Event.presents : Event → Bool
  | .present _ => true
  | _ => false

theorem Event.presents_of_isReply {e : Event} (h : e.isReply = true) : e.presents = false := by
  cases e with
  | present => cases h
  | _ => rfl

theorem Event.isReply_of_isFailure {e : Event} (h : e.isFailure = true) : e.isReply = true := by
  cases e with
  | present | reset | tick => cases h
  | _ => rfl

/-- A command between acceptance and response is not in IDLE (R29). -/
theorem ne_idle_of_mem_busyPhases {i : Instr} {p : Phase} (h : p ∈ busyPhases i) : p ≠ .idle := by
  rintro rfl
  cases i <;> simp [busyPhases] at h

/-! ### The step by what is taken -/

theorem step_of_port {s : State} {c : Command} {rest : List Command} {i : Instr} (ha : s.ambient = none)
    (hp : s.phase = .idle) (hq : s.port = c :: rest) (hd : decode c.word c.payload = .command i) :
    step s = exec i { s with port := rest } := by
  simp [step, ha, hp, hq, hd]

theorem step_of_illegal {s : State} {c : Command} {rest : List Command} {sub : Subcode} (ha : s.ambient = none)
    (hp : s.phase = .idle) (hq : s.port = c :: rest) (hd : decode c.word c.payload = .illegal sub) :
    step s = .next ({ s with port := rest }.rejectIllegal sub) := by
  simp [step, ha, hp, hq, hd]

theorem step_of_empty_port {s : State} (ha : s.ambient = none) (hp : s.phase = .idle) (hq : s.port = []) :
    step s = .next s := by
  simp [step, ha, hp, hq]

/-- With a command in flight and no other agent's event first, the step is the command's own (R28). -/
theorem step_of_inFlight {s : State} {i : Instr} (ha : s.ambient = none) (hp : s.phase ≠ .idle)
    (hi : s.inFlight = some i) : step s = exec i s := by
  unfold step
  rw [ha]
  cases h : s.phase with
  | idle => exact absurd h hp
  | bindWait | selectWait | settle | dataWait | releaseWait => simp [hi]

/-! ### The order of inputs -/

/-- In flight a reply is the command's own. -/
theorem ambient_of_reply {s : State} {e : Event} {rest : List Event} (hp : s.phase ≠ .idle) (he : s.events = e :: rest)
    (hre : e.isReply = true) : s.ambient = none := by
  unfold State.ambient
  rw [he]
  cases e with
  | present | reset | tick => cases hre
  | bindReply | writeReply | readReply | releaseReply => simp [hp]

/-- A command at the port goes first unless a reset or a late reply arrives (log entries 2, 21). -/
theorem ambient_of_portFirst {s : State} (hp : s.phase = .idle) (hq : s.port ≠ []) (hf : s.portFirst = true) :
    s.ambient = none :=
  ambient_of_port hp hq fun e es he => by simpa [State.portFirst, he] using hf

/-- With a reset about to arrive the step is the reset. -/
theorem ambient_of_reset {s : State} {rest : List Event} (he : s.events = .reset :: rest) :
    s.ambient = some (s.resetInput rest) := by
  simp [State.ambient, he]

theorem step_of_ambient {s t : State} (h : s.ambient = some t) : step s = .next t := by
  simp [step, h]

theorem ambient_of_no_event {s : State} (he : s.events = []) : s.ambient = none := by
  simp [State.ambient, he]

/-- A tick outside SETTLE changes nothing (R28). -/
theorem ambient_of_tick {s : State} {rest : List Event} (he : s.events = .tick :: rest) (hp : s.phase ≠ .settle)
    (hq : s.phase ≠ .idle ∨ s.port = []) : s.ambient = some (s.discard rest) := by
  rcases hq with hq | hq <;> simp [State.ambient, he, hp, hq]

/-- A reply in IDLE with no command at the port is discarded (R241, U15). -/
theorem ambient_of_reply_of_idle {s : State} {e : Event} {rest : List Event} (he : s.events = e :: rest)
    (hre : e.isReply = true) (hp : s.phase = .idle) (hq : s.port = []) : s.ambient = some (s.discardReply e rest) := by
  unfold State.ambient
  rw [he]
  cases e with
  | present | reset | tick => cases hre
  | bindReply | writeReply | readReply | releaseReply => simp [hp, hq]

theorem ambient_outputs {s t : State} (h : s.ambient = some t) : t.outputs = s.outputs := by
  rcases ambient_some h with ⟨rest, -, rfl⟩ | ⟨c, rest, -, rfl⟩ | ⟨rest, -, -, rfl⟩ | ⟨e, rest, -, -, -, -, rfl⟩ <;> rfl

/-- `step_next` with every command's step as a move: the rejection of a word that names no command is S1 of any command. -/
theorem step_move {s t : State} (h : step s = .next t) :
    s.ambient = some t ∨ (s.ambient = none ∧ s.phase = .idle ∧ s.port = [] ∧ t = s) ∨
    (s.ambient = none ∧ s.phase = .idle ∧ ∃ c rest i, s.port = c :: rest ∧ Move i { s with port := rest } t) ∨
    (s.ambient = none ∧ s.phase ≠ .idle ∧ ∃ i, Move i s t) := by
  rcases step_next h with ha | hw | ⟨ha, hp, c, rest, sub, hq, -, rfl⟩ | ⟨ha, hp, c, rest, i, hq, -, hm⟩ |
    ⟨ha, hp, i, -, hm⟩
  · exact .inl ha
  · exact .inr (.inl hw)
  · exact .inr (.inr (.inl ⟨ha, hp, c, rest, .close, hq, Move.rejected hp (.inr rfl)⟩))
  · exact .inr (.inr (.inl ⟨ha, hp, c, rest, i, hq, hm⟩))
  · exact .inr (.inr (.inr ⟨ha, hp, i, hm⟩))

/-! ### The responses among what was emitted -/

@[simp] theorem responsesIn_append (os os' : List Output) :
    responsesIn (os ++ os') = responsesIn os ++ responsesIn os' := List.filterMap_append
@[simp] theorem responsesIn_nil : responsesIn [] = [] := rfl
@[simp] theorem responsesIn_request (r : Request) (os : List Output) :
    responsesIn (.request r :: os) = responsesIn os := rfl
@[simp] theorem responsesIn_trace (e : TraceEvent) (os : List Output) :
    responsesIn (.trace e :: os) = responsesIn os := rfl
@[simp] theorem responsesIn_response (r : Response) (os : List Output) :
    responsesIn (.response r :: os) = r :: responsesIn os := rfl

/-! ### What the step takes -/

/-- Settles O22. -/
theorem stepRunsCommand : Obligations.StepRunsCommand :=
  ⟨fun _ _ _ _ hp hq hf hd => step_of_port (ambient_of_portFirst hp (by simp [hq]) hf) hp hq hd,
    fun _ _ hp ha hi => step_of_inFlight ha hp hi⟩

/-- Settles O24. -/
theorem resetValues : Obligations.ResetValues := ⟨rfl, rfl, rfl, rfl, rfl, rfl⟩

/-- Settles O27. -/
theorem ticksAndStaleRepliesChangeNothing : Obligations.TicksAndStaleRepliesChangeNothing := by
  refine ⟨fun s rest he hp hq => step_of_ambient (ambient_of_tick he hp hq), fun s e rest he hre hp hq => ?_⟩
  rcases hq with hq | hl
  · exact step_of_ambient (ambient_of_reply_of_idle he hre hp hq)
  · exact step_of_ambient (ambient_of_late hp he hl)

end Sys2Proof.Machine
end

section
/-! SUPPORT. Items 1 to 5 of R38 hold at reset and every step keeps them. -/

namespace Sys2Proof.Machine

/-! ### Items 1 to 5 of R38 -/

/-- What R38 asks of a state in IDLE. -/
theorem State.Inv.of_idle {t : State} (hp : t.phase = .idle) (hz : t.lifecycle = .unbound → t.bus = 0 ∧ t.addr = 0)
    (hq : t.pending = none) (ht : t.tmr = 0) : t.Inv := by
  simpa [State.Inv, hp, hq, ht, Phase.waits] using hz

/-- What R38 asks of a state that waits for a transport reply. -/
theorem State.Inv.of_requesting {t : State} (hl : t.lifecycle = .opened) (hq : t.pending.isSome = true)
    (hp : t.phase.waits = true) (hb : t.phase ≠ .bindWait) (ht : t.tmr = 0) : t.Inv := by
  simp [State.Inv, hl, hq, hp, hb, ht]

theorem State.Inv.congr {s t : State} (h : s.Inv) (hl : t.lifecycle = s.lifecycle) (hb : t.bus = s.bus)
    (ha : t.addr = s.addr) (hp : t.phase = s.phase) (ht : t.tmr = s.tmr) (hq : t.pending = s.pending) : t.Inv := by
  simpa [State.Inv, hl, hb, ha, hp, ht, hq] using h

theorem State.Inv.pending_eq_none {s : State} (h : s.Inv) (hp : s.phase.waits = false) : s.pending = none := by
  obtain ⟨-, -, -, hq, -⟩ := h
  simpa [hp] using hq

theorem State.Inv.tmr_eq_zero {s : State} (h : s.Inv) (hp : s.phase ≠ .settle) : s.tmr = 0 := by
  obtain ⟨-, -, -, -, ht⟩ := h
  exact not_not.mp (mt ht hp)

theorem State.Inv.opened {s : State} (h : s.Inv)
    (hp : s.phase = .selectWait ∨ s.phase = .settle ∨ s.phase = .dataWait ∨ s.phase = .releaseWait) :
    s.lifecycle = .opened := by
  obtain ⟨-, ho, -⟩ := h
  exact ho hp

/-- A step of `exec` keeps items 1 to 5 of R38. -/
theorem Move.keepsInv {i : Instr} {s t : State} (hm : Move i s t) (hs : s.Inv) : t.Inv := by
  have hz : s.lifecycle = .unbound → s.bus = 0 ∧ s.addr = 0 := by
    obtain ⟨-, -, hz, -, -⟩ := hs
    exact hz
  cases hm with
  | stays => exact hs
  | rejected hp | answered hp =>
    exact .of_idle rfl hz (hs.pending_eq_none (by simp [hp, Phase.waits])) (hs.tmr_eq_zero (by simp [hp]))
  | startsBind hp _ hl =>
    simpa [State.Inv, hl, hs.tmr_eq_zero (by simp [hp]), Phase.waits] using hz hl
  | @starts bytes r p hp hl hm _ hb hne =>
    have hi : p ≠ .idle := ne_idle_of_mem_busyPhases hm
    refine .of_requesting hl rfl ?_ hb (hs.tmr_eq_zero (by simp [hp]))
    cases p <;> simp_all [Phase.waits]
  | bound hp | released hp | releaseFailed hp => exact .of_idle rfl nofun rfl (hs.tmr_eq_zero (by simp [hp]))
  | bindFailed hp => exact .of_idle rfl hz rfl (hs.tmr_eq_zero (by simp [hp]))
  | selected hp => simp [State.Inv, hs.opened (.inl hp), Phase.waits]
  | ticked hp =>
    simp [State.Inv, hp, hs.opened (.inr (.inl hp)), hs.pending_eq_none (by simp [hp, Phase.waits]), Phase.waits]
  | settled hp ht => exact .of_requesting (hs.opened (.inr (.inl hp))) rfl rfl nofun ht
  | wrote hp | got hp => exact .of_idle rfl hz rfl (hs.tmr_eq_zero (by simp [hp]))
  | failed hp => exact .of_idle rfl hz rfl (hs.tmr_eq_zero (by rcases hp with hp | hp <;> simp [hp]))

/-- Settles O29, by cases on the moves of R28. -/
theorem stepKeepsInvariant : Obligations.StepKeepsInvariant := by
  intro s t hs h
  rcases step_move h with ha | ⟨-, -, -, rfl⟩ | ⟨-, -, c, rest, i, -, hm⟩ | ⟨-, -, i, hm⟩
  · rcases ambient_some ha with ⟨rest, -, rfl⟩ | ⟨c, rest, -, rfl⟩ | ⟨rest, -, -, rfl⟩ | ⟨e, rest, -, -, -, -, rfl⟩
    · exact .of_idle rfl (fun _ => ⟨rfl, rfl⟩) rfl rfl
    all_goals exact hs.congr rfl rfl rfl rfl rfl rfl
  · exact hs
  · exact hm.keepsInv (hs.congr rfl rfl rfl rfl rfl rfl)
  · exact hm.keepsInv hs

/-- Settles O28. -/
theorem invariantAtReset : Obligations.InvariantAtReset :=
  ⟨.of_idle rfl (fun _ => ⟨rfl, rfl⟩) rfl rfl, .inl rfl⟩

end Sys2Proof.Machine
end

section
/-! SUPPORT. Every step keeps that CMDREG holds the command in flight (R21, R28, R29). -/

namespace Sys2Proof.Machine

/-- The payload of a command in flight is found again from CMDREG and the outstanding request. -/
theorem payloadInFlight_of_request {i : Instr} {s : State} (hw : s.cmdreg = i.word) (hm : s.phase ∈ busyPhases i)
    (hr : s.pending = requestIn i s.phase) : s.payloadInFlight = i.payload := by
  cases i with
  | writeBytes len payload =>
    have hp : s.phase = .dataWait := by simpa [busyPhases] using hm
    have hq : s.pending = some (.write payload) := by rw [hr, hp]; rfl
    simp [State.payloadInFlight, hw, hq, Instr.op, Instr.payload]
  | _ => simp [State.payloadInFlight, hw, Instr.op, Instr.payload, Op.code]

theorem inFlight_of_request {i : Instr} {s : State} (hd : decode i.word i.payload = .command i)
    (hw : s.cmdreg = i.word) (hm : s.phase ∈ busyPhases i) (hr : s.pending = requestIn i s.phase) :
    s.inFlight = some i := by
  rw [State.inFlight, payloadInFlight_of_request hw hm hr, hw, hd]

/-- The command found in flight is the one whose word CMDREG holds. -/
theorem decode_of_inFlight {i : Instr} {s : State} (h : s.inFlight = some i) :
    s.cmdreg = i.word ∧ decode i.word i.payload = .command i := by
  unfold State.inFlight at h
  split at h
  next j hd =>
    obtain rfl := Option.some.inj h
    obtain ⟨-, hw, hp⟩ := decode_command hd
    exact ⟨hw.symm, by rw [hw, hp, hd]⟩
  next => cases h

/-- Command `i` is in flight in `s`: CMDREG is its word, the phase one of its own, the outstanding request its own. -/
def State.Holds (s : State) (i : Instr) : Prop :=
  s.cmdreg = i.word ∧ s.phase ∈ busyPhases i ∧ s.pending = requestIn i s.phase

/-- A move ends in IDLE or leaves the command in flight, its request for the new phase outstanding. -/
theorem Move.idle_or_holds {i : Instr} {s t : State} (hm : Move i s t) (hs : s.phase ≠ .idle → s.Holds i) :
    t.phase = .idle ∨ t.Holds i := by
  cases hm with
  | stays hp => exact .inr (hs (ne_idle_of_mem_busyPhases hp))
  | startsBind _ hi => exact .inr ⟨by simp, by simp [hi, busyPhases], by rw [hi]; rfl⟩
  | starts _ _ hm hr => exact .inr ⟨by simp, hm, hr.symm⟩
  | selected hp hm _ hd =>
    obtain ⟨hw, -, -⟩ := hs (by simp [hp])
    exact .inr ⟨hw, hm, hd.symm⟩
  | ticked hp => exact .inr (hs (by simp [hp]))
  | settled hp _ hm hr =>
    obtain ⟨hw, -, -⟩ := hs (by simp [hp])
    exact .inr ⟨hw, hm, hr.symm⟩
  | rejected | answered | bound | bindFailed | released | releaseFailed | wrote | got | failed => exact .inl rfl

/-- `CommandHeld` by the command itself, whose word and payload decode to it. -/
theorem commandHeld_iff {s : State} : s.CommandHeld ↔
    s.phase = .idle ∨ ∃ i, decode i.word i.payload = .command i ∧ s.Holds i := by
  constructor
  · rintro (hp | ⟨i, hi, hm, hr⟩)
    · exact .inl hp
    · obtain ⟨hw, hd⟩ := decode_of_inFlight hi
      exact .inr ⟨i, hd, hw, hm, hr⟩
  · rintro (hp | ⟨i, hd, hw, hm, hr⟩)
    · exact .inl hp
    · exact .inr ⟨i, inFlight_of_request hd hw hm hr, hm, hr⟩

theorem Move.commandHeld {i : Instr} {s t : State} (hm : Move i s t) (hd : decode i.word i.payload = .command i)
    (hs : s.phase ≠ .idle → s.Holds i) : t.CommandHeld := by
  rw [commandHeld_iff]
  exact (hm.idle_or_holds hs).imp_right fun h => ⟨i, hd, h⟩

theorem State.CommandHeld.congr {s t : State} (h : s.CommandHeld) (hp : t.phase = s.phase) (hw : t.cmdreg = s.cmdreg)
    (hq : t.pending = s.pending) : t.CommandHeld := by
  simp only [commandHeld_iff, State.Holds, hp, hw, hq] at h ⊢
  exact h

/-- Settles O30, by `Move.idle_or_holds`: a move leaves the command's word in CMDREG and its request outstanding, or ends in
IDLE. -/
theorem stepKeepsCommandHeld : Obligations.StepKeepsCommandHeld := by
  intro s t hs h
  rcases step_next h with ha | ⟨-, -, -, rfl⟩ | ⟨-, -, c, rest, sub, -, -, rfl⟩ | ⟨-, hp, c, rest, i, -, hd, hm⟩ |
    ⟨-, hp, i, hi, hm⟩
  · rcases ambient_some ha with ⟨rest, -, rfl⟩ | ⟨c, rest, -, rfl⟩ | ⟨rest, -, -, rfl⟩ | ⟨e, rest, -, -, -, -, rfl⟩
    · exact .inl rfl
    all_goals exact hs.congr rfl rfl rfl
  · exact hs
  · exact .inl rfl
  · obtain ⟨-, hw, hpl⟩ := decode_command hd
    exact hm.commandHeld (by rw [hw, hpl, hd]) (absurd hp)
  · obtain ⟨hw, hd⟩ := decode_of_inFlight hi
    rcases hs with hidle | ⟨j, hj, hmem, hr⟩
    · exact absurd hidle hp
    · obtain rfl : i = j := Option.some.inj (hi.symm.trans hj)
      exact hm.commandHeld hd fun _ => ⟨hw, hmem, hr⟩

end Sys2Proof.Machine
end

section
/-! SUPPORT. Every command gets exactly one response (R38 item 6). -/

namespace Sys2Proof.Machine

/-! ### The count of commands -/

theorem commandCount_eq (s : State) : s.commandCount =
    (responsesIn s.outputs).length + s.owed + s.port.length + (s.events.filter Event.presents).length := rfl

theorem owed_of_busy {s : State} (h : s.phase ≠ .idle) : s.owed = 1 := if_neg h

@[simp] theorem owed_enqueue (s : State) (c : Command) (rest : List Event) : (s.enqueue c rest).owed = s.owed := rfl
@[simp] theorem owed_discard (s : State) (rest : List Event) : (s.discard rest).owed = s.owed := rfl
@[simp] theorem owed_discardReply (s : State) (e : Event) (rest : List Event) :
    (s.discardReply e rest).owed = s.owed := rfl

/-- A move of a command ends with the command in flight or answered. -/
theorem Move.commandCount {i : Instr} {s t : State} (hm : Move i s t) : t.commandCount + s.owed = s.commandCount + 1 := by
  cases hm with
  | stays hp => simp [owed_of_busy (ne_idle_of_mem_busyPhases hp)]
  | rejected hp | answered hp | startsBind hp => simp [commandCount_eq, State.owed, hp]; omega
  | starts hp _ hm => simp [commandCount_eq, State.owed, hp, ne_idle_of_mem_busyPhases hm]; omega
  | bound hp _ he | bindFailed hp he | released hp he | releaseFailed hp he | selected hp _ _ _ he | ticked hp _ _ he
  | wrote hp _ _ he | got hp _ _ he => simp [commandCount_eq, State.owed, hp, he, Event.presents]
  | settled hp => simp [commandCount_eq, State.owed, hp]
  | failed hp he hf =>
    have hne : s.phase ≠ .idle := by rcases hp with hp | hp <;> simp [hp]
    simp [commandCount_eq, State.owed, hne, he, Event.presents_of_isReply (Event.isReply_of_isFailure hf)]

/-- Settles O34, by `Move.commandCount`: a command's move leaves it in flight or answers it. -/
theorem oneResponsePerCommand : Obligations.OneResponsePerCommand := by
  intro s t h
  constructor
  · intro hr
    rcases step_move h with ha | ⟨-, -, -, rfl⟩ | ⟨-, hp, c, rest, i, hq, hm⟩ | ⟨-, hp, i, hm⟩
    · rcases ambient_some ha with ⟨rest, he, rfl⟩ | ⟨c, rest, he, rfl⟩ | ⟨rest, he, -, rfl⟩ |
        ⟨e, rest, he, hre, -, -, rfl⟩
      · exact absurd he (hr rest)
      · simp [commandCount_eq, he, List.filter_cons, Event.presents]; omega
      · simp [commandCount_eq, he, Event.presents]
      · simp [commandCount_eq, he, Event.presents_of_isReply hre]
    · rfl
    · have hc := hm.commandCount
      simp only [commandCount_eq, State.owed, hp, hq, List.length_cons, if_true] at hc ⊢
      omega
    · have hc := hm.commandCount
      rw [owed_of_busy hp] at hc
      exact Nat.add_right_cancel hc
  · intro rest he
    obtain rfl := Host.Outcome.next.inj ((step_of_ambient (ambient_of_reset he)).symm.trans h)
    simp [commandCount_eq, State.owed, he, Event.presents]
    omega

end Sys2Proof.Machine
end

section
/-! SUPPORT. The step goes on exactly when the collaborators keep their contract (R59), and waits while nothing arrives (R30). -/

namespace Sys2Proof.Machine

/-- How a step ends under a contract that is kept (`b = true`) or broken: it goes on, or it refuses by name (R59, U15). -/
def GoesOnIff (o : Out) (b : Bool) : Prop :=
  (b = true → ∃ t, o = .next t) ∧
  (b = false → o = .refused .brokenTransportContract ∨ o = .refused .replyNotAwaited)

theorem goesOnIff_next (t : State) : GoesOnIff (.next t) true := ⟨fun _ => ⟨t, rfl⟩, nofun⟩
theorem goesOnIff_brokenTransportContract : GoesOnIff (.refused .brokenTransportContract) false :=
  ⟨nofun, fun _ => .inl rfl⟩
theorem goesOnIff_replyNotAwaited : GoesOnIff (.refused .replyNotAwaited) false := ⟨nofun, fun _ => .inr rfl⟩

/-- In IDLE every reply may arrive. -/
theorem wellAnswered_of_idle {s : State} (hp : s.phase = .idle) : s.wellAnswered = true := by
  unfold State.wellAnswered
  split <;> simp [hp]

theorem wellAnswered_of_not_isReply {s : State} (h : ∀ e rest, s.events = e :: rest → e.isReply = false) :
    s.wellAnswered = true := by
  unfold State.wellAnswered
  split
  next => rfl
  next e rest he => simp [h e rest he]

theorem wellAnswered_of_pending {s : State} {r : Request} {e : Event} {rest : List Event} (hp : s.phase ≠ .idle)
    (hr : s.pending = some r) (he : s.events = e :: rest) (hre : e.isReply = true) :
    s.wellAnswered = r.answeredBy e := by
  simp [State.wellAnswered, he, hre, hp, hr]

/-- Waiting for a reply goes on under the contract if the continuation does. -/
theorem awaitReply_goesOn {s : State} {r : Request} {k : Event → State → Out} (hp : s.phase ≠ .idle)
    (hr : s.pending = some r) (hk : ∀ e t, e.isReply = true → GoesOnIff (k e t) (r.answeredBy e)) :
    GoesOnIff (s.awaitReply k) s.wellAnswered := by
  unfold State.awaitReply
  split
  next he =>
    rw [wellAnswered_of_not_isReply (by simp [he])]
    exact goesOnIff_next s
  next e rest he =>
    split
    next hre =>
      rw [wellAnswered_of_pending hp hr he hre]
      exact hk e _ hre
    next hre =>
      rw [wellAnswered_of_not_isReply (by simpa [he] using hre)]
      exact goesOnIff_next s

theorem awaitBind_goesOn {s : State} {bus : BusId} {addr : DevAddr} {ok : State → State} {bad : Info → State → State}
    (hp : s.phase ≠ .idle) (hr : s.pending = some (.bind bus addr)) :
    GoesOnIff (s.awaitBind ok bad) s.wellAnswered :=
  awaitReply_goesOn hp hr fun e t _ => by
    match e with
    | .bindReply false _ | .bindReply true _ => exact goesOnIff_next _
    | .present _ | .reset | .tick | .writeReply .. | .readReply .. | .releaseReply .. => exact goesOnIff_replyNotAwaited

theorem awaitRelease_goesOn {s : State} {ok : State → State} {bad : Info → State → State}
    (hp : s.phase ≠ .idle) (hr : s.pending = some .release) :
    GoesOnIff (s.awaitRelease ok bad) s.wellAnswered :=
  awaitReply_goesOn hp hr fun e t _ => by
    match e with
    | .releaseReply false _ | .releaseReply true _ => exact goesOnIff_next _
    | .present _ | .reset | .tick | .writeReply .. | .readReply .. | .bindReply .. => exact goesOnIff_replyNotAwaited

theorem awaitWrite_goesOn {s : State} {bytes : List Byte} {ok : Len → State → State} {bad : Len → Info → State → State}
    (hp : s.phase ≠ .idle) (hr : s.pending = some (.write bytes)) :
    GoesOnIff (s.awaitWrite bytes.length ok bad) s.wellAnswered :=
  awaitReply_goesOn hp hr fun e t _ => by
    match e with
    | .writeReply false info count =>
      by_cases hc : count.toNat = bytes.length
      · simpa [Request.answeredBy, hc] using goesOnIff_next _
      · have hb : (Request.write bytes).answeredBy (.writeReply false info count) = false := by
          simpa [Request.answeredBy] using hc
        simpa [hb, hc] using goesOnIff_brokenTransportContract
    | .writeReply true _ _ => exact goesOnIff_next _
    | .present _ | .reset | .tick | .bindReply .. | .readReply .. | .releaseReply .. => exact goesOnIff_replyNotAwaited

theorem awaitRead_goesOn {s : State} {n : Len} {ok : Len → List Byte → State → State}
    {bad : Len → Info → State → State} (hp : s.phase ≠ .idle) (hr : s.pending = some (.read n)) :
    GoesOnIff (s.awaitRead n.toNat ok bad) s.wellAnswered :=
  awaitReply_goesOn hp hr fun e t _ => by
    match e with
    | .readReply false info count data =>
      by_cases hc : count = n ∧ data.length = n.toNat
      · simpa [Request.answeredBy, hc] using goesOnIff_next _
      · have hb : (Request.read n).answeredBy (.readReply false info count data) = false := by
          simpa [Request.answeredBy] using hc
        rw [← BitVec.toNat_inj] at hc
        simpa [hb, hc] using goesOnIff_brokenTransportContract
    | .readReply true _ _ _ => exact goesOnIff_next _
    | .present _ | .reset | .tick | .bindReply .. | .writeReply .. | .releaseReply .. => exact goesOnIff_replyNotAwaited

/-- In SETTLE no request is outstanding, so a reply is refused, but at TMR = 0 the event is not looked at (S10). -/
theorem settleStep_goesOn {s : State} (n : Len) (hp : s.phase = .settle) (hr : s.pending = none) :
    GoesOnIff (s.settleStep n) s.wellAnswered := by
  unfold State.settleStep
  split
  next h0 =>
    have hw : s.wellAnswered = true := by
      unfold State.wellAnswered
      split <;> simp [hp, hr, h0]
    exact hw ▸ goesOnIff_next _
  next h0 =>
    split
    next rest he => exact wellAnswered_of_not_isReply (s := s) (by simp [he, Event.isReply]) ▸ goesOnIff_next _
    next he => exact wellAnswered_of_not_isReply (s := s) (by simp [he]) ▸ goesOnIff_next _
    next e rest _ he =>
      split
      next hre =>
        have hw : s.wellAnswered = false := by
          simpa [State.wellAnswered, he, hre, hp, hr] using h0
        exact hw ▸ goesOnIff_replyNotAwaited
      next hre => exact wellAnswered_of_not_isReply (s := s) (by simpa [he] using hre) ▸ goesOnIff_next _

theorem registerRead_goesOn {i : Instr} {s : State} {reg : RegAddr} {n : Len} {delay : Ticks} {conv : Buf → ResultWord}
    (hb : busyPhases i = [.selectWait, .settle, .dataWait]) (hw : requestIn i .selectWait = some (.write [reg]))
    (hs : requestIn i .settle = none) (hn : requestIn i .dataWait = some (.read n))
    (hm : s.phase ∈ busyPhases i) (hr : s.pending = requestIn i s.phase) :
    GoesOnIff (s.registerRead i.word reg n delay conv) s.wellAnswered := by
  have hp : s.phase = .selectWait ∨ s.phase = .settle ∨ s.phase = .dataWait := by simpa [hb] using hm
  rcases hp with hp | hp | hp <;> rw [hp] at hr <;> simp only [State.registerRead, hp]
  · exact awaitWrite_goesOn (bytes := [reg]) (by simp [hp]) (hr.trans hw)
  · exact settleStep_goesOn n hp (hr.trans hs)
  · exact awaitRead_goesOn (by simp [hp]) (hr.trans hn)

theorem registerWrite_goesOn {i : Instr} {s : State} {frame : List Byte} (hb : busyPhases i = [.dataWait])
    (hn : requestIn i .dataWait = some (.write frame)) (hm : s.phase ∈ busyPhases i)
    (hr : s.pending = requestIn i s.phase) : GoesOnIff (s.registerWrite i.word frame) s.wellAnswered := by
  have hp : s.phase = .dataWait := by simpa [hb] using hm
  rw [hp] at hr
  simp only [State.registerWrite, hp]
  exact awaitWrite_goesOn (by simp [hp]) (hr.trans hn)

/-- The step of the command in flight goes on exactly under the contract. -/
theorem exec_goesOn {i : Instr} {s : State} (hm : s.phase ∈ busyPhases i) (hr : s.pending = requestIn i s.phase) :
    GoesOnIff (exec i s) s.wellAnswered := by
  cases i with
  | bind addr bus =>
    have hp : s.phase = .bindWait := by simpa [busyPhases] using hm
    rw [hp] at hr
    simp only [exec, execBind, hp]
    exact awaitBind_goesOn (by simp [hp]) hr
  | close =>
    have hp : s.phase = .releaseWait := by simpa [busyPhases] using hm
    rw [hp] at hr
    simp only [exec, execClose, hp]
    exact awaitRelease_goesOn (by simp [hp]) hr
  | getBus | getAddr => cases hm
  | writeBytes len payload =>
    have hp : s.phase = .dataWait := by simpa [busyPhases] using hm
    rw [hp] at hr
    simp only [exec, execWriteBytes, hp]
    exact awaitWrite_goesOn (by simp [hp]) hr
  | readBytes len =>
    have hp : s.phase = .dataWait := by simpa [busyPhases] using hm
    rw [hp] at hr
    simp only [exec, execReadBytes, hp]
    exact awaitRead_goesOn (by simp [hp]) hr
  | readU8 | readU16Be | readU16Le | readS16Be | readS16Le => exact registerRead_goesOn rfl rfl rfl rfl hm hr
  | writeU8 | writeS8 | writeU16Be | writeU16Le | writeS16Be | writeS16Le => exact registerWrite_goesOn rfl rfl hm hr

theorem accept_goesOn (s : State) (a : Admission) (go : State → State) : GoesOnIff (s.accept a go) true := by
  unfold State.accept
  split <;> exact goesOnIff_next _

theorem registerRead_goesOn_of_idle {s : State} {w : CmdWord} {reg : RegAddr} {n : Len} {delay : Ticks}
    {conv : Buf → ResultWord} (hp : s.phase = .idle) : GoesOnIff (s.registerRead w reg n delay conv) true := by
  simpa only [State.registerRead, hp] using accept_goesOn s _ _

theorem registerWrite_goesOn_of_idle {s : State} {w : CmdWord} {frame : List Byte} (hp : s.phase = .idle) :
    GoesOnIff (s.registerWrite w frame) true := by
  simpa only [State.registerWrite, hp] using accept_goesOn s _ _

/-- At the command port every command has a next state. -/
theorem exec_goesOn_of_idle (i : Instr) {s : State} (hp : s.phase = .idle) : GoesOnIff (exec i s) true := by
  cases i with
  | bind => simpa only [exec, execBind, hp] using accept_goesOn s _ _
  | close => simpa only [exec, execClose, hp] using accept_goesOn s _ _
  | getBus => simpa only [exec, execGetBus, hp] using accept_goesOn s _ _
  | getAddr => simpa only [exec, execGetAddr, hp] using accept_goesOn s _ _
  | writeBytes => simpa only [exec, execWriteBytes, hp] using accept_goesOn s _ _
  | readBytes => simpa only [exec, execReadBytes, hp] using accept_goesOn s _ _
  | readU8 | readU16Be | readU16Le | readS16Be | readS16Le => exact registerRead_goesOn_of_idle hp
  | writeU8 | writeS8 | writeU16Be | writeU16Le | writeS16Be | writeS16Le => exact registerWrite_goesOn_of_idle hp

/-- What is no command's step happens only within the contract. -/
theorem wellAnswered_of_ambient {s t : State} (h : s.ambient = some t) : s.wellAnswered = true := by
  rcases ambient_some h with ⟨rest, he, -⟩ | ⟨c, rest, he, -⟩ | ⟨rest, he, -, -⟩ | ⟨e, rest, -, -, hp, -, -⟩
  · simp [State.wellAnswered, he, Event.isReply]
  · simp [State.wellAnswered, he, Event.isReply]
  · simp [State.wellAnswered, he, Event.isReply]
  · exact wellAnswered_of_idle hp

theorem step_goesOn_of_idle {s : State} (hp : s.phase = .idle) : GoesOnIff (step s) true := by
  cases ha : s.ambient with
  | some t => exact step_of_ambient ha ▸ goesOnIff_next t
  | none =>
    match hq : s.port with
    | [] => exact step_of_empty_port ha hp hq ▸ goesOnIff_next s
    | c :: rest =>
      match hd : decode c.word c.payload with
      | .illegal sub => exact step_of_illegal ha hp hq hd ▸ goesOnIff_next _
      | .command i => exact step_of_port ha hp hq hd ▸ exec_goesOn_of_idle i hp

/-- Settles O31, by `exec_goesOn`. -/
theorem stepGoesOnUnderContract : Obligations.StepGoesOnUnderContract := by
  intro s hs
  change GoesOnIff (step s) s.wellAnswered
  rcases hs with hp | ⟨i, hi, hm, hr⟩
  · exact wellAnswered_of_idle hp ▸ step_goesOn_of_idle hp
  · cases ha : s.ambient with
    | some t => exact wellAnswered_of_ambient ha ▸ step_of_ambient ha ▸ goesOnIff_next t
    | none =>
      rw [step_of_inFlight ha (ne_idle_of_mem_busyPhases hm) hi]
      exact exec_goesOn hm hr

/-- A command that waits for a reply makes no move while nothing arrives (R30). -/
theorem Move.eq_of_no_event {i : Instr} {s t : State} (hm : Move i s t) (he : s.events = [])
    (hw : s.phase.waits = true) : t = s := by
  have hidle : s.phase ≠ .idle := fun h => by simp [h, Phase.waits] at hw
  cases hm with
  | stays => rfl
  | rejected hp | answered hp | startsBind hp | starts hp => exact absurd hp hidle
  | settled hp => simp [hp, Phase.waits] at hw
  | bound _ _ h | bindFailed _ h | released _ h | releaseFailed _ h | selected _ _ _ _ h | ticked _ _ _ h
  | wrote _ _ _ h | got _ _ _ h | failed _ h => exact absurd (he.symm.trans h) nofun

/-- Settles O25: under the contract the step goes on, and no move but waiting is possible. -/
theorem waitsWithoutReply : Obligations.WaitsWithoutReply := by
  intro s hs he hw
  obtain ⟨t, ht⟩ := (stepGoesOnUnderContract s hs).1 (wellAnswered_of_not_isReply (by simp [he]))
  have ha := ambient_of_no_event he
  rcases step_move ht with h | ⟨-, -, -, rfl⟩ | ⟨-, hp, -⟩ | ⟨-, -, i, hm⟩
  · exact absurd (ha.symm.trans h) nofun
  · exact ht
  · simp [hp, Phase.waits] at hw
  · rw [ht, hm.eq_of_no_event he hw]

end Sys2Proof.Machine
end

section
/-! SUPPORT. The transitions of STATE, the requests outside Open, and whole runs of the lifecycle commands and raw transfers. -/

namespace Sys2Proof.Machine

/-! ### STATE -/

/-- A successful bind reply in BIND_WAIT is about to be taken. -/
def State.Binds (s : State) : Prop := s.phase = .bindWait ∧ ∃ info rest, s.events = .bindReply false info :: rest

/-- A release reply in RELEASE_WAIT is about to be taken. -/
def State.Releases (s : State) : Prop :=
  s.phase = .releaseWait ∧ ∃ err info rest, s.events = .releaseReply err info :: rest

/-- The table of R33 but for its reset row: a bind opens, a release closes, every other step leaves STATE. -/
structure LifecycleFollows (s t : State) : Prop where
  onBind : s.Binds → t.lifecycle = .opened
  onRelease : s.Releases → t.lifecycle = .closed
  otherwise : ¬ s.Binds → ¬ s.Releases → t.lifecycle = s.lifecycle

theorem LifecycleFollows.of_phase {s t : State} (hb : s.phase ≠ .bindWait) (hr : s.phase ≠ .releaseWait)
    (ht : t.lifecycle = s.lifecycle) : LifecycleFollows s t where
  onBind := fun ⟨hp, _⟩ => absurd hp hb
  onRelease := fun ⟨hp, _⟩ => absurd hp hr
  otherwise _ _ := ht

theorem LifecycleFollows.of_no_reply {s t : State} (hn : ∀ e rest, s.events = e :: rest → e.isReply = false)
    (ht : t.lifecycle = s.lifecycle) : LifecycleFollows s t where
  onBind := fun ⟨_, _, _, he⟩ => absurd (hn _ _ he) nofun
  onRelease := fun ⟨_, _, _, _, he⟩ => absurd (hn _ _ he) nofun
  otherwise _ _ := ht

theorem LifecycleFollows.of_bind {s t : State} (hs : s.Binds) (ht : t.lifecycle = .opened) : LifecycleFollows s t where
  onBind _ := ht
  onRelease := fun ⟨hp, _⟩ => absurd (hs.1.symm.trans hp) nofun
  otherwise hb := absurd hs hb

theorem LifecycleFollows.of_release {s t : State} (hs : s.Releases) (ht : t.lifecycle = .closed) :
    LifecycleFollows s t where
  onBind := fun ⟨hp, _⟩ => absurd (hs.1.symm.trans hp) nofun
  onRelease _ := ht
  otherwise _ hr := absurd hs hr

theorem LifecycleFollows.of_failed_bind {s t : State} {info : Info} {rest : List Event} (hp : s.phase = .bindWait)
    (he : s.events = .bindReply true info :: rest) (ht : t.lifecycle = s.lifecycle) : LifecycleFollows s t where
  onBind := fun ⟨_, _, _, hb⟩ => absurd (he.symm.trans hb) (by simp)
  onRelease := fun ⟨hr, _⟩ => absurd (hp.symm.trans hr) nofun
  otherwise _ _ := ht

/-- Every move changes STATE as R33 says. -/
theorem Move.lifecycleFollows {i : Instr} {s t : State} (hm : Move i s t) : LifecycleFollows s t := by
  cases hm with
  | stays _ hn => exact .of_no_reply hn rfl
  | bound hp _ he => exact .of_bind ⟨hp, _, _, he⟩ rfl
  | released hp he | releaseFailed hp he => exact .of_release ⟨hp, _, _, _, he⟩ rfl
  | bindFailed hp he => exact .of_failed_bind hp he rfl
  | failed hp => rcases hp with hp | hp <;> exact .of_phase (by simp [hp]) (by simp [hp]) rfl
  | rejected hp | answered hp | startsBind hp | starts hp | selected hp | ticked hp | settled hp | wrote hp | got hp =>
    exact .of_phase (by simp [hp]) (by simp [hp]) rfl

/-- R33: a reset leads to Unbound, and every step without one follows the rest of the table. -/
theorem step_lifecycle {s t : State} (h : step s = .next t) :
    (∃ rest, s.events = .reset :: rest ∧ t.lifecycle = .unbound) ∨
      ((∀ rest, s.events ≠ .reset :: rest) ∧ LifecycleFollows s t) := by
  by_cases hr : ∃ rest, s.events = .reset :: rest
  · obtain ⟨rest, he⟩ := hr
    obtain rfl := Host.Outcome.next.inj ((step_of_ambient (ambient_of_reset he)).symm.trans h)
    exact .inl ⟨rest, he, rfl⟩
  refine .inr ⟨fun rest he => hr ⟨rest, he⟩, ?_⟩
  rcases step_move h with ha | ⟨-, hp, -, rfl⟩ | ⟨-, hp, c, rest, i, hq, hm⟩ | ⟨-, hp, i, hm⟩
  · rcases ambient_some ha with ⟨rest, he, -⟩ | ⟨c, rest, he, rfl⟩ | ⟨rest, he, -, rfl⟩ | ⟨e, rest, -, -, hp, -, rfl⟩
    · exact absurd ⟨rest, he⟩ hr
    · exact .of_no_reply (by simp [he, Event.isReply]) rfl
    · exact .of_no_reply (by simp [he, Event.isReply]) rfl
    · exact .of_phase (by simp [hp]) (by simp [hp]) rfl
  · exact .of_phase (by simp [hp]) (by simp [hp]) rfl
  · obtain ⟨hb, hr, ho⟩ := hm.lifecycleFollows
    exact ⟨hb, hr, ho⟩
  · exact hm.lifecycleFollows

/-- Settles O32, by `step_lifecycle`. -/
theorem lifecycleTransitionsComplete : Obligations.LifecycleTransitionsComplete := by
  rintro s t ⟨hbw, how, -⟩ h
  rcases step_lifecycle h with ⟨rest, he, ht⟩ | ⟨hnr, hf⟩
  · refine ⟨fun _ _ => ht, ?_, ?_, ?_, fun _ => .inl ⟨rest, he⟩⟩ <;> simp [he]
  · refine ⟨fun rest he => absurd he (hnr rest), fun info rest hp he => ⟨hbw hp, hf.onBind ⟨hp, _, _, he⟩⟩,
      fun info rest hp he => ⟨hbw hp, ?_⟩,
      fun err info rest hp he => ⟨how (by simp [hp]), hf.onRelease ⟨hp, _, _, _, he⟩⟩, fun hne => .inr ?_⟩
    · exact (hf.otherwise (by simp [State.Binds, he]) (by simp [State.Releases, hp])).trans (hbw hp)
    · by_cases hb : s.Binds
      · obtain ⟨hp, info, rest, he⟩ := hb
        exact .inl ⟨info, rest, hp, he⟩
      by_cases hr : s.Releases
      · obtain ⟨hp, err, info, rest, he⟩ := hr
        exact .inr ⟨err, info, rest, hp, he⟩
      exact absurd (hf.otherwise hb hr) hne

/-! ### Requests -/

/-- Outside Open a move requests nothing but, in Unbound, a bind (R37). -/
theorem Move.requests_of_not_opened {i : Instr} {s t : State} (hm : Move i s t) (hl : s.lifecycle ≠ .opened)
    (hs : s.phase ≠ .settle) : ∃ os, t.outputs = s.outputs ++ os ∧
      (requestsIn os = [] ∨ ∃ bus addr, requestsIn os = [.bind bus addr] ∧ s.lifecycle = .unbound) := by
  cases hm with
  | stays | ticked => exact ⟨[], by simp, .inl rfl⟩
  | rejected | answered | bound | bindFailed | released | releaseFailed | failed | selected => exact ⟨_, rfl, .inl rfl⟩
  | startsBind _ _ hu => exact ⟨_, rfl, .inr ⟨_, _, rfl, hu⟩⟩
  | starts _ ho => exact absurd ho hl
  | settled hp => exact absurd hp hs
  | wrote | got => exact ⟨_, List.append_assoc _ _ _, .inl rfl⟩

/-- Settles O36, by `Move.requests_of_not_opened`. -/
theorem noTransportRequestUnlessOpen : Obligations.NoTransportRequestUnlessOpen := by
  intro s t hs hl h
  have hsettle : s.phase ≠ .settle := fun hp => hl (hs.opened (.inr (.inl hp)))
  rcases step_move h with ha | ⟨-, -, -, rfl⟩ | ⟨-, -, c, rest, i, -, hm⟩ | ⟨-, -, i, hm⟩
  · exact ⟨[], by simp [ambient_outputs ha], .inl rfl⟩
  · exact ⟨[], by simp, .inl rfl⟩
  · exact hm.requests_of_not_opened hl hsettle
  · exact hm.requests_of_not_opened hl hsettle

/-! ### Runs -/

theorem run_two {M : Host.Core} {s u : M.State} (h : M.step s = .next u) : M.run 2 s = M.step u := by
  simp only [Host.Core.run, h]
  cases M.step u <;> rfl

/-- A command at the port whose reply stands next takes two steps: its start, and its step at the reply. -/
theorem run_two_of_reply {s u t : State} {c : Command} {later : List Command} {i : Instr} {e : Event}
    {rest : List Event} (hp : s.phase = .idle) (hq : s.port = c :: later) (hf : s.portFirst = true)
    (hd : decode c.word c.payload = .command i) (hu : exec i { s with port := later } = .next u) (hi : u.Holds i)
    (he : u.events = e :: rest) (hre : e.isReply = true) (ht : exec i u = .next t) :
    Host.Core.run core 2 s = .next t := by
  obtain ⟨-, hw, hpl⟩ := decode_command hd
  obtain ⟨hcw, hm, hr⟩ := hi
  have hbusy : u.phase ≠ .idle := ne_idle_of_mem_busyPhases hm
  have h1 : step s = .next u := (step_of_port (ambient_of_portFirst hp (by simp [hq]) hf) hp hq hd).trans hu
  have h2 : step u = exec i u :=
    step_of_inFlight (ambient_of_reply hbusy he hre) hbusy (inFlight_of_request (by rw [hw, hpl, hd]) hcw hm hr)
  exact (run_two (M := core) h1).trans (h2.trans ht)

/-! ### Acceptance and replies, forwards -/

theorem accept_of_none {s : State} {a : Admission} (go : State → State) (h : lifecycleFault a s.lifecycle = none) :
    s.accept a go = .next (go s) := by
  simp [State.accept, h]

theorem awaitReply_of_reply {s : State} {e : Event} {rest : List Event} (k : Event → State → Out)
    (he : s.events = e :: rest) (hre : e.isReply = true) : s.awaitReply k = k e (s.takeReply rest) := by
  simp [State.awaitReply, he, hre]

theorem awaitBind_of_ok {s : State} {info : Info} {rest : List Event} (ok : State → State) (bad : Info → State → State)
    (he : s.events = .bindReply false info :: rest) : s.awaitBind ok bad = .next (ok (s.takeReply rest)) :=
  awaitReply_of_reply _ he rfl

theorem awaitRelease_of_ok {s : State} {info : Info} {rest : List Event} (ok : State → State)
    (bad : Info → State → State) (he : s.events = .releaseReply false info :: rest) :
    s.awaitRelease ok bad = .next (ok (s.takeReply rest)) :=
  awaitReply_of_reply _ he rfl

theorem awaitWrite_of_ok {s : State} {n : Nat} {info : Info} {count : Len} {rest : List Event}
    (ok : Len → State → State) (bad : Len → Info → State → State)
    (he : s.events = .writeReply false info count :: rest) (hc : count.toNat = n) :
    s.awaitWrite n ok bad = .next (ok count (s.takeReply rest)) :=
  (awaitReply_of_reply _ he rfl).trans (if_pos hc)

theorem awaitRead_of_ok {s : State} {n : Nat} {info : Info} {count : Len} {data : List Byte} {rest : List Event}
    (ok : Len → List Byte → State → State) (bad : Len → Info → State → State)
    (he : s.events = .readReply false info count data :: rest) (hc : count.toNat = n) (hd : data.length = n) :
    s.awaitRead n ok bad = .next (ok count data (s.takeReply rest)) :=
  (awaitReply_of_reply _ he rfl).trans (if_pos ⟨hc, hd⟩)

theorem byteCount_of_length {len : Len} {bytes : List Byte} (h : bytes.length = len.toNat) : byteCount bytes = len := by
  simp [byteCount, h]

theorem exec_bind_of_unbound {addr : DevAddr} {bus : BusId} {s : State} (hp : s.phase = .idle)
    (hl : s.lifecycle = .unbound) :
    exec (.bind addr bus) s = .next ((s.latch (Instr.bind addr bus).word).issue (.bind bus addr) .bindWait) := by
  simp only [exec, execBind, hp]
  exact accept_of_none _ (by rw [hl]; rfl)

theorem exec_close_of_opened {s : State} (hp : s.phase = .idle) (hl : s.lifecycle = .opened) :
    exec .close s = .next ((s.latch Instr.close.word).issue .release .releaseWait) := by
  simp only [exec, execClose, hp]
  exact accept_of_none _ (by rw [hl]; rfl)

theorem exec_writeBytes_of_opened {len : Len} {payload : List Byte} {s : State} (hp : s.phase = .idle)
    (hl : s.lifecycle = .opened) : exec (.writeBytes len payload) s =
      .next ((s.latch (Instr.writeBytes len payload).word).issue (.write payload) .dataWait) := by
  simp only [exec, execWriteBytes, hp]
  exact accept_of_none _ (by rw [hl]; rfl)

theorem exec_readBytes_of_opened {len : Len} {s : State} (hp : s.phase = .idle) (hl : s.lifecycle = .opened) :
    exec (.readBytes len) s = .next ((s.latch (Instr.readBytes len).word).issue (.read len) .dataWait) := by
  simp only [exec, execReadBytes, hp]
  exact accept_of_none _ (by rw [hl]; rfl)

theorem exec_bind_of_ok {addr : DevAddr} {bus : BusId} {s : State} {info : Info} {rest : List Event}
    (hp : s.phase = .bindWait) (he : s.events = .bindReply false info :: rest) :
    exec (.bind addr bus) s = .next (((s.takeReply rest).bindTo addr bus).respond .ok 0 0 []) := by
  simp only [exec, execBind, hp]
  exact awaitBind_of_ok _ _ he

theorem exec_close_of_ok {s : State} {info : Info} {rest : List Event} (hp : s.phase = .releaseWait)
    (he : s.events = .releaseReply false info :: rest) :
    exec .close s = .next ((s.takeReply rest).closeChannel.respond .ok 0 0 []) := by
  simp only [exec, execClose, hp]
  exact awaitRelease_of_ok _ _ he

theorem exec_writeBytes_of_ok {len : Len} {payload : List Byte} {s : State} {info : Info} {count : Len}
    {rest : List Event} (hp : s.phase = .dataWait) (he : s.events = .writeReply false info count :: rest)
    (hc : count.toNat = payload.length) : exec (.writeBytes len payload) s =
      .next (((s.takeReply rest).emit (.trace ⟨.write, byteCount payload, payload, none⟩)).respond .ok count 0 []) := by
  simp only [exec, execWriteBytes, hp]
  exact awaitWrite_of_ok _ _ he hc

theorem exec_readBytes_of_ok {len : Len} {s : State} {info : Info} {data : List Byte} {rest : List Event}
    (hp : s.phase = .dataWait) (he : s.events = .readReply false info len data :: rest)
    (hd : data.length = len.toNat) : exec (.readBytes len) s =
      .next (((s.takeReply rest).emit (.trace ⟨.read, len, data, none⟩)).respond .ok len 0 data) := by
  simp only [exec, execReadBytes, hp]
  exact awaitRead_of_ok _ _ he rfl hd

theorem holds_of_issue (s : State) (w : CmdWord) {i : Instr} {r : Request} {p : Phase} (hw : i.word = w)
    (hm : p ∈ busyPhases i) (hr : requestIn i p = some r) : ((s.latch w).issue r p).Holds i :=
  ⟨hw.symm, hm, hr.symm⟩

/-- Settles O42, each command by its two steps. -/
theorem lifecycleAndRawRuns : Obligations.LifecycleAndRawRuns := by
  intro s c later info rest hp hq hf
  refine ⟨fun addr bus hd hl he => ?_, fun hd hl he => ?_, fun len payload hd hl he => ?_,
    fun len data hd hl hlen he => ?_⟩ <;> obtain ⟨hwf, hw, -⟩ := decode_command hd
  · refine (run_two_of_reply hp hq hf hd (exec_bind_of_unbound hp hl)
      (holds_of_issue _ _ rfl (by simp [busyPhases]) rfl) he rfl (exec_bind_of_ok rfl he)).trans ?_
    simp [State.bindTo, State.respond, State.takeReply, State.issue, State.latch, hp, hw]
  · refine (run_two_of_reply hp hq hf hd (exec_close_of_opened hp hl)
      (holds_of_issue _ _ rfl (by simp [busyPhases]) rfl) he rfl (exec_close_of_ok rfl he)).trans ?_
    simp [State.closeChannel, State.respond, State.takeReply, State.issue, State.latch, hp, hw]
  · have hlen : payload.length = len.toNat := beq_iff_eq.mp hwf
    refine (run_two_of_reply hp hq hf hd (exec_writeBytes_of_opened hp hl)
      (holds_of_issue _ _ rfl (by simp [busyPhases]) rfl) he rfl (exec_writeBytes_of_ok rfl he hlen.symm)).trans ?_
    simp [byteCount_of_length hlen, State.emit, State.respond, State.takeReply, State.issue, State.latch, hp, hw]
  · refine (run_two_of_reply hp hq hf hd (exec_readBytes_of_opened hp hl)
      (holds_of_issue _ _ rfl (by simp [busyPhases]) rfl) he rfl (exec_readBytes_of_ok rfl he hlen)).trans ?_
    simp [State.emit, State.respond, State.takeReply, State.issue, State.latch, hp, hw]

end Sys2Proof.Machine
end

section
/-! SUPPORT. What each command leaves unchanged. -/

namespace Sys2Proof.Machine

/-! ### Register commands as the two protocols -/

/-- The five register reads are one protocol with five conversions (R160). -/
theorem exec_of_registerReads {reg : RegAddr} {delay : Ticks} {x : Instr × Len × (Buf → ResultWord)}
    (hx : x ∈ registerReads reg delay) (s : State) :
    exec x.1 s = s.registerRead x.1.word reg x.2.1 delay x.2.2 := by
  simp only [registerReads, List.mem_cons, List.not_mem_nil, or_false] at hx
  rcases hx with rfl | rfl | rfl | rfl | rfl <;> rfl

theorem hi8_swap16 (v : Half) : hi8 (swap16 v) = lo8 v := hi8_append _ _
theorem lo8_swap16 (v : Half) : lo8 (swap16 v) = hi8 v := lo8_append _ _

theorem frameLe_eq (reg : RegAddr) (v : Half) : frameLe reg v = [reg, lo8 v, hi8 v] := by
  simp [frameLe, le16Bytes, be16Bytes, hi8_swap16, lo8_swap16]

/-- The six register writes are one protocol, by their wire bytes (R180, R190). -/
theorem exec_of_registerWrites {reg : RegAddr} {b : Byte} {v : Half} {old : Buf} {x : Instr × List Byte × Buf}
    (hx : x ∈ registerWrites reg b v old) (s : State) : exec x.1 s = s.registerWrite x.1.word x.2.1 := by
  simp only [registerWrites, List.mem_cons, List.not_mem_nil, or_false] at hx
  rcases hx with rfl | rfl | rfl | rfl | rfl | rfl
  · rfl
  · rfl
  · rfl
  · exact congrArg (s.registerWrite _) (frameLe_eq reg v)
  · rfl
  · exact congrArg (s.registerWrite _) (frameLe_eq reg v)

/-- Settles O50, by what a register read can answer. -/
theorem frameOfRegisterReads : Obligations.FrameOfRegisterReads := by
  intro reg delay s t x hx h
  rw [exec_of_registerReads hx] at h
  rcases registerRead_next h with ⟨hp, st, info, -, rfl⟩ | ⟨hp, -, rfl⟩ | ⟨hp, info, count, rest, he, -, rfl⟩ |
    ⟨hp, info, count, rest, he, rfl⟩ | ⟨hp, -, rfl⟩ | ⟨hp, -, rest, he, rfl⟩ |
    ⟨hp, info, count, data, rest, he, -, -, rfl⟩ | ⟨hp, info, count, data, rest, he, rfl⟩ | ⟨-, rfl, -⟩
  · simp [hp]
  · simp [hp]
  · simp [hp, he]
  · simp [hp, he]
  · simp [hp]
  · simp [hp, he]
  · simp [hp, he]
  · simp [hp, he]
  · simp

/-- Everything WRITE_BYTES can answer (R130). -/
theorem execWriteBytes_next {len : Len} {payload : List Byte} {s t : State}
    (h : execWriteBytes len payload s = .next t) :
    (s.phase = .idle ∧ ∃ st info, t = s.respond st 0 info []) ∨
    (s.phase = .idle ∧ t = (s.latch (Instr.writeBytes len payload).word).issue (.write payload) .dataWait) ∨
    (∃ info count rest, s.events = .writeReply false info count :: rest ∧
      t = ((s.takeReply rest).emit (.trace ⟨.write, byteCount payload, payload, none⟩)).respond .ok count 0 []) ∨
    (∃ info count rest, s.events = .writeReply true info count :: rest ∧
      t = (s.takeReply rest).forgetBuf.respond .transferError count info []) ∨
    t = s := by
  unfold execWriteBytes at h
  split at h
  next hp =>
    rcases accept_next h with ⟨st, info, -, rfl⟩ | ⟨-, rfl⟩
    · exact .inl ⟨hp, st, info, rfl⟩
    · exact .inr (.inl ⟨hp, rfl⟩)
  next hp =>
    rcases awaitWrite_next h with ⟨rfl, -⟩ | ⟨info, count, rest, he, -, rfl⟩ | ⟨info, count, rest, he, rfl⟩
    · exact .inr (.inr (.inr (.inr rfl)))
    · exact .inr (.inr (.inl ⟨info, count, rest, he, rfl⟩))
    · exact .inr (.inr (.inr (.inl ⟨info, count, rest, he, rfl⟩)))
  all_goals cases h

/-- Everything READ_BYTES can answer (R132). -/
theorem execReadBytes_next {len : Len} {s t : State} (h : execReadBytes len s = .next t) :
    (s.phase = .idle ∧ ∃ st info, t = s.respond st 0 info []) ∨
    (s.phase = .idle ∧ t = (s.latch (Instr.readBytes len).word).issue (.read len) .dataWait) ∨
    (∃ info count data rest, s.events = .readReply false info count data :: rest ∧
      t = ((s.takeReply rest).emit (.trace ⟨.read, count, data, none⟩)).respond .ok count 0 data) ∨
    (∃ info count data got rest, s.events = .readReply true info count data :: rest ∧
      t = (s.takeReply rest).forgetBuf.respond .transferError count info got) ∨
    t = s := by
  unfold execReadBytes at h
  split at h
  next hp =>
    rcases accept_next h with ⟨st, info, -, rfl⟩ | ⟨-, rfl⟩
    · exact .inl ⟨hp, st, info, rfl⟩
    · exact .inr (.inl ⟨hp, rfl⟩)
  next hp =>
    rcases awaitRead_next h with ⟨rfl, -⟩ | ⟨info, count, data, rest, he, -, -, rfl⟩ | ⟨info, count, data, rest, he, rfl⟩
    · exact .inr (.inr (.inr (.inr rfl)))
    · exact .inr (.inr (.inl ⟨info, count, data, rest, he, rfl⟩))
    · exact .inr (.inr (.inr (.inl ⟨info, count, data, _, rest, he, rfl⟩)))
  all_goals cases h

/-- Settles O51, by what each command can answer. -/
theorem frameOfWritesAndRaw : Obligations.FrameOfWritesAndRaw := by
  constructor
  · intro reg b v s t x hx h
    rw [exec_of_registerWrites hx] at h
    rcases registerWrite_next h with ⟨hp, st, info, -, rfl⟩ | ⟨hp, -, rfl⟩ | ⟨hp, info, count, rest, he, -, rfl⟩ |
      ⟨hp, info, count, rest, he, rfl⟩ | ⟨-, rfl, -⟩
    · simp
    · simp [hp]
    · simp [hp, he]
    · simp [hp, he]
    · simp
  · intro len payload s t i hi h
    simp only [List.mem_cons, List.not_mem_nil, or_false] at hi
    rcases hi with rfl | rfl
    · rcases execWriteBytes_next h with ⟨hp, st, info, rfl⟩ | ⟨hp, rfl⟩ | ⟨info, count, rest, he, rfl⟩ |
        ⟨info, count, rest, he, rfl⟩ | rfl
      · simp
      · simp [hp]
      · simp [he]
      · simp [he]
      · simp
    · rcases execReadBytes_next h with ⟨hp, st, info, rfl⟩ | ⟨hp, rfl⟩ | ⟨info, count, data, rest, he, rfl⟩ |
        ⟨info, count, data, got, rest, he, rfl⟩ | rfl
      · simp
      · simp [hp]
      · simp [he]
      · simp [he]
      · simp

/-- Everything BIND can answer (R111). -/
theorem execBind_next {addr : DevAddr} {bus : BusId} {s t : State} (h : execBind addr bus s = .next t) :
    (s.phase = .idle ∧ ∃ st info, t = s.respond st 0 info []) ∨
    (s.phase = .idle ∧ t = (s.latch (Instr.bind addr bus).word).issue (.bind bus addr) .bindWait) ∨
    (s.phase = .bindWait ∧ ∃ rest, t = ((s.takeReply rest).bindTo addr bus).respond .ok 0 0 []) ∨
    (s.phase = .bindWait ∧ ∃ info rest, t = (s.takeReply rest).respond .bindError 0 info []) ∨
    t = s := by
  unfold execBind at h
  split at h
  next hp =>
    rcases accept_next h with ⟨st, info, -, rfl⟩ | ⟨-, rfl⟩
    · exact .inl ⟨hp, st, info, rfl⟩
    · exact .inr (.inl ⟨hp, rfl⟩)
  next hp =>
    rcases awaitBind_next h with ⟨rfl, -⟩ | ⟨info, rest, -, rfl⟩ | ⟨info, rest, -, rfl⟩
    · exact .inr (.inr (.inr (.inr rfl)))
    · exact .inr (.inr (.inl ⟨hp, rest, rfl⟩))
    · exact .inr (.inr (.inr (.inl ⟨hp, info, rest, rfl⟩)))
  all_goals cases h

/-- Everything CLOSE can answer (R113). -/
theorem execClose_next {s t : State} (h : execClose s = .next t) :
    (s.phase = .idle ∧ ∃ st info, t = s.respond st 0 info []) ∨
    (s.phase = .idle ∧ t = (s.latch Instr.close.word).issue .release .releaseWait) ∨
    (s.phase = .releaseWait ∧ ∃ rest, t = (s.takeReply rest).closeChannel.respond .ok 0 0 []) ∨
    (s.phase = .releaseWait ∧ ∃ info rest,
      t = (s.takeReply rest).closeChannel.forgetBuf.respond .transferError 0 info []) ∨
    t = s := by
  unfold execClose at h
  split at h
  next hp =>
    rcases accept_next h with ⟨st, info, -, rfl⟩ | ⟨-, rfl⟩
    · exact .inl ⟨hp, st, info, rfl⟩
    · exact .inr (.inl ⟨hp, rfl⟩)
  next hp =>
    rcases awaitRelease_next h with ⟨rfl, -⟩ | ⟨info, rest, -, rfl⟩ | ⟨info, rest, -, rfl⟩
    · exact .inr (.inr (.inr (.inr rfl)))
    · exact .inr (.inr (.inl ⟨hp, rest, rfl⟩))
    · exact .inr (.inr (.inr (.inl ⟨hp, info, rest, rfl⟩)))
  all_goals cases h

theorem accept_respond_next {s t : State} {a : Admission} {r : State → ResultWord}
    (h : (s.accept a fun u => u.respond .ok 0 (r u) []) = .next t) : ∃ st result, t = s.respond st 0 result [] := by
  rcases accept_next h with ⟨st, info, -, rfl⟩ | ⟨-, rfl⟩
  · exact ⟨st, info, rfl⟩
  · exact ⟨.ok, r s, rfl⟩

theorem execGetBus_next {s t : State} (h : execGetBus s = .next t) :
    s.phase = .idle ∧ ∃ st result, t = s.respond st 0 result [] := by
  unfold execGetBus at h
  split at h
  next hp => exact ⟨hp, accept_respond_next (r := State.bus) h⟩
  all_goals cases h

theorem execGetAddr_next {s t : State} (h : execGetAddr s = .next t) :
    s.phase = .idle ∧ ∃ st result, t = s.respond st 0 result [] := by
  unfold execGetAddr at h
  split at h
  next hp => exact ⟨hp, accept_respond_next (r := fun u => u.addr.zeroExtend 32) h⟩
  all_goals cases h

/-- A response in IDLE is one more output and nothing else. -/
theorem respond_of_idle {s : State} (hp : s.phase = .idle) (st : Status) (c : Len) (r : ResultWord) (d : List Byte) :
    s.respond st c r d = { s with outputs := s.outputs ++ [.response ⟨responseWord st c r, d⟩] } := by
  simp [State.respond, hp]

/-- Settles O52, by what each command can answer. -/
theorem frameOfLifecycleCommands : Obligations.FrameOfLifecycleCommands := by
  refine ⟨fun addr bus s t h => ?_, fun s t h => ?_, fun s t i hi h => ?_⟩
  · rcases execBind_next h with ⟨hp, st, info, rfl⟩ | ⟨hp, rfl⟩ | ⟨hp, rest, rfl⟩ | ⟨hp, info, rest, rfl⟩ | rfl
    · simp
    · simp [hp]
    · simp [hp]
    · simp
    · simp
  · rcases execClose_next h with ⟨hp, st, info, rfl⟩ | ⟨hp, rfl⟩ | ⟨hp, rest, rfl⟩ | ⟨hp, info, rest, rfl⟩ | rfl
    · simp
    · simp [hp]
    · simp [hp]
    · simp [hp]
    · simp
  · have hr : s.phase = .idle ∧ ∃ st result, t = s.respond st 0 result [] := by
      simp only [List.mem_cons, List.not_mem_nil, or_false] at hi
      rcases hi with rfl | rfl
      · exact execGetBus_next h
      · exact execGetAddr_next h
    obtain ⟨hp, st, result, rfl⟩ := hr
    exact ⟨_, respond_of_idle hp _ _ _ _⟩

end Sys2Proof.Machine
end

section
/-! SUPPORT. At most one request is outstanding (R55), and the Reference Device keeps its memory's form (R73). -/

namespace Sys2Proof.Machine

/-! ### Requests and what is outstanding -/

/-- From `s` to `t` outputs are only added: no request, with the outstanding one left or ended, or one request, made where
none was outstanding and then outstanding itself (R55). -/
def RequestsFollow (s t : State) : Prop :=
  ∃ os, t.outputs = s.outputs ++ os ∧
    ((requestsIn os = [] ∧ (t.pending = s.pending ∨ t.pending = none)) ∨
      ∃ r, requestsIn os = [r] ∧ s.pending = none ∧ t.pending = some r)

theorem RequestsFollow.of_silent {s t : State} (ho : t.outputs = s.outputs)
    (hp : t.pending = s.pending ∨ t.pending = none) : RequestsFollow s t :=
  ⟨[], by simp [ho], .inl ⟨rfl, hp⟩⟩

theorem RequestsFollow.of_request {s t : State} {r : Request} (ho : t.outputs = s.outputs ++ [.request r])
    (hs : s.pending = none) (ht : t.pending = some r) : RequestsFollow s t :=
  ⟨[.request r], ho, .inr ⟨r, rfl, hs, ht⟩⟩

/-- A move requests only from IDLE and at the end of SETTLE, where the phase waits for no reply (R28). -/
theorem Move.requestsFollow {i : Instr} {s t : State} (hm : Move i s t)
    (hs : s.phase.waits = false → s.pending = none) : RequestsFollow s t := by
  cases hm with
  | stays | ticked => exact .of_silent rfl (.inl rfl)
  | startsBind hp | starts hp | settled hp => exact .of_request rfl (hs (by simp [hp, Phase.waits])) rfl
  | rejected | answered => exact ⟨_, rfl, .inl ⟨rfl, .inl rfl⟩⟩
  | bound | bindFailed | released | releaseFailed | selected | failed => exact ⟨_, rfl, .inl ⟨rfl, .inr rfl⟩⟩
  | wrote | got => exact ⟨_, List.append_assoc _ _ _, .inl ⟨rfl, .inr rfl⟩⟩

/-- A reset ends what is outstanding; no other agent's event touches it. -/
theorem ambient_pending {s t : State} (h : s.ambient = some t) : t.pending = s.pending ∨ t.pending = none := by
  rcases ambient_some h with ⟨rest, -, rfl⟩ | ⟨c, rest, -, rfl⟩ | ⟨rest, -, -, rfl⟩ | ⟨e, rest, -, -, -, -, rfl⟩
  · exact .inr rfl
  all_goals exact .inl rfl

/-- Settles O35, by `Move.requestsFollow`: item 4 of R38 says that nothing is outstanding where a move requests. -/
theorem oneRequestOutstanding : Obligations.OneRequestOutstanding := by
  intro s t hs h
  rcases step_move h with ha | ⟨-, -, -, rfl⟩ | ⟨-, -, c, rest, i, -, hm⟩ | ⟨-, -, i, hm⟩
  · exact RequestsFollow.of_silent (ambient_outputs ha) (ambient_pending ha)
  · exact RequestsFollow.of_silent rfl (.inl rfl)
  · exact hm.requestsFollow hs.pending_eq_none
  · exact hm.requestsFollow hs.pending_eq_none

/-! ### The Reference Device -/

/-- Storing a sequence of bytes keeps the canonical form, byte by byte. -/
theorem wf_storeFrom {m : Memory} (h : m.wf = true) (p : Byte) (k : Nat) (bytes : List Byte) :
    (storeFrom m p k bytes).wf = true := by
  induction bytes generalizing m k with
  | nil => exact h
  | cons b rest ih => exact ih (Memory.wf_write h _ b) (k + 1)

theorem RefDevice.wf_store {d : RefDevice} (h : d.mem.wf = true) (bytes : List Byte) :
    (d.store bytes).mem.wf = true := by
  cases bytes with
  | nil => exact h
  | cons p data => exact wf_storeFrom h p 0 data

/-- A request leaves the device as it was, but for a write that does not fail, which stores its bytes (R73). -/
theorem RefDevice.answer_device (d : RefDevice) (r : Request) :
    (d.answer r).1 = d ∨ ∃ bytes, r = .write bytes ∧ (d.answer r).1 = d.store bytes := by
  cases r with
  | bind | release => exact .inl rfl
  | write bytes =>
    cases hf : d.failW with
    | true => exact .inl (by simp [RefDevice.answer, hf])
    | false => exact .inr ⟨bytes, rfl, by simp [RefDevice.answer, hf]⟩
  | read n => cases hf : d.failR <;> exact .inl (by simp [RefDevice.answer, hf])

/-- Settles O54, by `RefDevice.answer_device`. -/
theorem deviceKeepsCanonicalMemory : Obligations.DeviceKeepsCanonicalMemory := by
  intro d r h
  rcases d.answer_device r with hd | ⟨bytes, -, hd⟩
  · rwa [hd]
  · rw [hd]
    exact RefDevice.wf_store h bytes

end Sys2Proof.Machine
end

section
/-! SUPPORT. The decoder's four answers (R89, R92), and that it reads back every encoded command (R80 to R88). -/

namespace Sys2Proof

/-! ### The decoder, answer by answer (R92) -/

theorem decode_of_unknown_opcode {w : CmdWord} (p : List Byte) (h : Op.ofCode (opField w) = none) :
    decode w p = .illegal .reservedOpcode := by
  simp [decode, h]

theorem decode_of_reserved_bits {w : CmdWord} {o : Op} (p : List Byte) (ho : opField w = o.code)
    (hm : w &&& o.format.reservedMask ≠ 0) : decode w p = .illegal .reservedBits := by
  rw [decode, ho, Op.ofCode_code]
  exact if_pos hm

theorem decode_of_wrong_length {w : CmdWord} {o : Op} {p : List Byte} (ho : opField w = o.code)
    (hm : w &&& o.format.reservedMask = 0) (hl : p.length ≠ payloadLength o w) :
    decode w p = .illegal .payloadMismatch := by
  simp [decode, ho, hm, hl]

theorem decode_of_legal {w : CmdWord} {o : Op} {p : List Byte} (ho : opField w = o.code)
    (hm : w &&& o.format.reservedMask = 0) (hl : p.length = payloadLength o w) :
    decode w p = .command (o.build w p) := by
  simp [decode, ho, hm, hl]

/-! ### The reserved bits of each format are clear (R81 to R86) -/

theorem wordN_reserved (op : Byte) : wordN op &&& Format.n.reservedMask = 0 := by
  rw [reserved_n, wordN_toNat]
  omega

theorem wordB_reserved (op : Byte) (addr : DevAddr) (bus : BusId) :
    wordB op addr bus &&& Format.b.reservedMask = 0 := by
  rw [reserved_b, wordB_toNat]
  omega

theorem wordR_reserved (op : Byte) (reg : RegAddr) (delay : Ticks) :
    wordR op reg delay &&& Format.r.reservedMask = 0 := by
  rw [reserved_r, wordR_toNat]
  omega

theorem wordW8_reserved (op : Byte) (reg : RegAddr) (data : Byte) :
    wordW8 op reg data &&& Format.w8.reservedMask = 0 := by
  rw [reserved_w8, wordW8_toNat]
  omega

theorem wordW16_reserved (op : Byte) (reg : RegAddr) (data : Half) :
    wordW16 op reg data &&& Format.w16.reservedMask = 0 := by
  rw [reserved_w16, wordW16_toNat]
  omega

theorem wordX_reserved (op : Byte) (len : Len) : wordX op len &&& Format.x.reservedMask = 0 := by
  rw [reserved_x, wordX_toNat]
  omega

theorem Instr.word_reserved (i : Instr) : i.word &&& i.op.format.reservedMask = 0 := by
  cases i with
  | bind => exact wordB_reserved _ _ _
  | close | getBus | getAddr => exact wordN_reserved _
  | writeBytes | readBytes => exact wordX_reserved _ _
  | readU8 | readU16Be | readU16Le | readS16Be | readS16Le => exact wordR_reserved _ _ _
  | writeU8 | writeS8 => exact wordW8_reserved _ _ _
  | writeU16Be | writeU16Le | writeS16Be | writeS16Le => exact wordW16_reserved _ _ _

/-! ### Decoding an encoded command -/

/-- A well-formed command's payload has the length its word calls for (R80, R89 item 3). -/
theorem Instr.payload_length {i : Instr} (h : i.wf = true) : i.payload.length = payloadLength i.op i.word := by
  cases i with
  | writeBytes len payload => simpa [Instr.wf, payloadLength, Instr.op, Instr.word, Instr.payload] using h
  | _ => rfl

/-- The fields of a command's word are its operands (R88). -/
theorem Instr.build_op (i : Instr) : i.op.build i.word i.payload = i := by
  cases i <;> simp [Instr.op, Op.build, Instr.word, Instr.payload]

theorem decode_encode {i : Instr} (h : i.wf = true) : decode i.word i.payload = .command i := by
  rw [decode_of_legal (opField_word i) i.word_reserved (Instr.payload_length h), i.build_op]

/-- Settles O1, by `decode_encode`. -/
theorem decodeEncodeRoundTrip : Obligations.DecodeEncodeRoundTrip :=
  fun _ h => decode_encode h

/-- Settles O2, by `decode_command`. -/
theorem decodedWordIsEncoding : Obligations.DecodedWordIsEncoding := by
  intro w p i h
  obtain ⟨hwf, rfl, rfl⟩ := decode_command h
  exact ⟨hwf, rfl⟩

/-- Settles O5: the legal words are encodings, so `decode_encode` reads them; the others fall to the first two tests of R89. -/
theorem workedEncodingsDecode : Obligations.WorkedEncodingsDecode :=
  ⟨decode_encode (i := .bind 0x48 1) rfl, decode_encode (i := .readU16Be 0x10 1000) rfl,
    decode_encode (i := .writeS8 0x05 0xFF) rfl, decode_encode (i := .writeU16Le 0x20 0x1234) rfl,
    decode_encode (i := .writeBytes 3 [0x10, 0x01, 0xF4]) rfl,
    decode_of_reserved_bits (o := .bind) [] rfl (by decide), decode_of_unknown_opcode [] (by decide)⟩

/-! ### The rows of R87 -/

theorem Op.mem_all (o : Op) : o ∈ Op.all := by
  cases o <;> decide

/-- The literal rows are those of the opcodes, each with its format's mask. -/
theorem opcodeRows_eq : Machine.opcodeRows = Op.all.map fun o => (o.code, o.format.reservedMask) := rfl

theorem Op.code_inj {o o' : Op} (h : o.code = o'.code) : o = o' :=
  Option.some.inj (by rw [← Op.ofCode_code o, h, Op.ofCode_code])

/-- The payload length by the OP byte: only row 0x10 has a payload (R80). -/
theorem payloadLength_eq (o : Op) (w : CmdWord) :
    payloadLength o w = if o.code = 0x10 then (lenField w).toNat else 0 :=
  if_congr ⟨fun h => h ▸ rfl, fun h => Op.code_inj (o' := .writeBytes) h⟩ rfl rfl

theorem Op.op_build (o : Op) (w : CmdWord) (p : List Byte) : (o.build w p).op = o := by
  cases o <;> rfl

/-- Settles O3: the rows are the opcodes (`opcodeRows_eq`), and the decoder has one lemma for each answer. -/
theorem decoderClassifiesEveryWord : Obligations.DecoderClassifiesEveryWord := by
  intro w p
  rw [opcodeRows_eq]
  constructor
  · intro h
    refine decode_of_unknown_opcode p (List.find?_eq_none.mpr fun o ho => ?_)
    have hne : opField w ≠ o.code := h _ (List.mem_map_of_mem ho)
    simpa using hne.symm
  · intro r hr ho
    obtain ⟨o, -, rfl⟩ := List.mem_map.mp hr
    have hlen := payloadLength_eq o w
    refine ⟨decode_of_reserved_bits p ho, fun hm hl => decode_of_wrong_length ho hm (hlen ▸ hl), fun hm hl => ?_⟩
    replace hl : p.length = payloadLength o w := hl.trans hlen.symm
    exact ⟨o.build w p, decode_of_legal ho hm hl, by rw [o.op_build], Op.build_word p ho.symm hm, Op.build_payload hl⟩

/-- Settles O4, format by format. -/
theorem commandWordsByFields : Obligations.CommandWordsByFields :=
  ⟨wordB_toNat _, ⟨wordN_toNat _, wordN_toNat _, wordN_toNat _⟩, fun len _ => wordX_toNat _ len, wordX_toNat _,
    fun reg d => ⟨wordR_toNat _ reg d, wordR_toNat _ reg d, wordR_toNat _ reg d, wordR_toNat _ reg d, wordR_toNat _ reg d⟩,
    fun reg b => ⟨wordW8_toNat _ reg b, wordW8_toNat _ reg b⟩,
    fun reg v => ⟨wordW16_toNat _ reg v, wordW16_toNat _ reg v, wordW16_toNat _ reg v, wordW16_toNat _ reg v⟩⟩

end Sys2Proof
end

section
/-! SUPPORT. A word that names no command at the port (R89, R207), and the response word's fields (R90). -/

namespace Sys2Proof.Machine

/-- Settles O6: the command at the port goes first, and its rejection is the plain response. -/
theorem illegalCommandsRejected : Obligations.IllegalCommandsRejected := by
  intro s c rest sub hp hq hf hd
  rw [step_of_illegal (ambient_of_portFirst hp (by simp [hq]) hf) hp hq hd]
  simp [State.rejectIllegal, State.respond, hp]

theorem responseWord_toNat (st : Status) (count : Len) (result : ResultWord) :
    (responseWord st count result).toNat = st.code.toNat + count.toNat * 2 ^ 16 + result.toNat * 2 ^ 32 := by
  simp only [responseWord, toNat_append_add, BitVec.ofNat_eq_ofNat, BitVec.toNat_ofNat]
  omega

/-- Settles O49, by `responseWord_toNat`; the statuses are R200's numbers by definition. -/
theorem responseWordFields : Obligations.ResponseWordFields :=
  ⟨responseWord_toNat, rfl, rfl, rfl, rfl, rfl⟩

end Sys2Proof.Machine
end

section
/-! SUPPORT. What each line of R94 and each pseudo-form of R95 assembles to, operand by operand. -/

namespace Sys2Proof.Machine

/-! ### Operands -/

/-- An unsigned operand is the bit vector with that number. -/
theorem unsignedOperand_eq_some {w : Nat} {v : Int} {b : BitVec w} :
    unsignedOperand w v = some b ↔ (b.toNat : Int) = v := by
  have hb : (b.toNat : Int) < 2 ^ w := by exact_mod_cast b.isLt
  unfold unsignedOperand
  constructor
  · intro h
    split at h
    next hv =>
      rw [← Option.some.inj h, BitVec.toNat_ofInt]
      push_cast
      rw [Int.emod_eq_of_lt hv.1 hv.2, Int.toNat_of_nonneg hv.1]
    next => cases h
  · rintro rfl
    rw [if_pos ⟨Int.natCast_nonneg _, hb⟩, BitVec.ofInt_natCast, BitVec.ofNat_toNat, BitVec.setWidth_eq]

/-- A signed operand is the bit vector with that two's-complement value. -/
theorem signedOperand_eq_some {w : Nat} (hw : 0 < w) {v : Int} {b : BitVec w} :
    signedOperand w v = some b ↔ b.toInt = v := by
  unfold signedOperand
  constructor
  · intro h
    split at h
    next hv =>
      rw [← Option.some.inj h]
      exact BitVec.toInt_ofInt_eq_self hw hv.1 hv.2
    next => cases h
  · rintro rfl
    rw [if_pos ⟨BitVec.le_toInt b, BitVec.toInt_lt⟩, BitVec.ofInt_toInt]

theorem unsignedOperand_isSome {w : Nat} {v : Int} :
    (unsignedOperand w v).isSome = true ↔ 0 ≤ v ∧ v < 2 ^ w := by
  unfold unsignedOperand
  split <;> simp [*]

theorem signedOperand_isSome {w : Nat} {v : Int} :
    (signedOperand w v).isSome = true ↔ -2 ^ (w - 1) ≤ v ∧ v < 2 ^ (w - 1) := by
  unfold signedOperand
  split <;> simp [*]

/-! ### Two operands together -/

theorem map₂_isSome {α β γ : Type} {f : α → β → γ} {a : Option α} {b : Option β} :
    (Option.map₂ f a b).isSome = true ↔ a.isSome = true ∧ b.isSome = true := by
  cases a <;> cases b <;> simp

/-- `Option.map₂_eq_some_iff` with the result first, as the statements about lines have it. -/
theorem map₂_eq_some {α β γ : Type} {f : α → β → γ} {a : Option α} {b : Option β} {c : γ} :
    Option.map₂ f a b = some c ↔ ∃ x y, c = f x y ∧ a = some x ∧ b = some y := by
  rw [Option.map₂_eq_some_iff]
  constructor
  · rintro ⟨x, y, hx, hy, rfl⟩
    exact ⟨x, y, rfl, hx, hy⟩
  · rintro ⟨x, y, rfl, hx, hy⟩
    exact ⟨x, y, hx, hy, rfl⟩

theorem byteOperands_cons (v : Int) (vs : List Int) :
    byteOperands (v :: vs) = Option.map₂ List.cons (unsignedOperand 8 v) (byteOperands vs) := by
  rw [byteOperands]
  cases unsignedOperand 8 v <;> cases byteOperands vs <;> rfl

theorem readOperands_eq (reg : Int) (delay : Option Int) (mk : RegAddr → Ticks → Instr) :
    readOperands reg delay mk = Option.map₂ mk (unsignedOperand 8 reg) (unsignedOperand 32 (delay.getD 0)) := by
  unfold readOperands
  cases unsignedOperand 8 reg <;> cases unsignedOperand 32 (delay.getD 0) <;> rfl

theorem writeOperands_eq {w : Nat} (reg : Int) (value : Option (BitVec w)) (mk : RegAddr → BitVec w → Instr) :
    writeOperands reg value mk = Option.map₂ mk (unsignedOperand 8 reg) value := by
  unfold writeOperands
  cases unsignedOperand 8 reg <;> cases value <;> rfl

theorem assemble_bind (addr bus : Int) :
    assemble (.bind addr bus) = Option.map₂ .bind (unsignedOperand 7 addr) (unsignedOperand 32 bus) := by
  rw [assemble]
  cases unsignedOperand 7 addr <;> cases unsignedOperand 32 bus <;> rfl

theorem assemble_writeBytes (bytes : List Int) :
    assemble (.writeBytes bytes) =
      Option.map₂ (fun len bs => .writeBytes len bs) (unsignedOperand 16 bytes.length) (byteOperands bytes) := by
  rw [assemble]
  cases byteOperands bytes <;> cases unsignedOperand 16 bytes.length <;> rfl

/-! ### The operands of a line by their numbers -/

/-- The bytes of a line are those with the listed numbers, in order. -/
theorem byteOperands_eq_some {vs : List Int} {bs : List Byte} :
    byteOperands vs = some bs ↔ bs.map (fun b => (b.toNat : Int)) = vs := by
  induction vs generalizing bs with
  | nil => simp [byteOperands, @eq_comm _ [] bs]
  | cons v vs ih => simp only [byteOperands_cons, map₂_eq_some, List.map_eq_cons_iff, unsignedOperand_eq_some, ih]

theorem byteOperands_isSome {vs : List Int} :
    (byteOperands vs).isSome = true ↔ ∀ v ∈ vs, 0 ≤ v ∧ v < 2 ^ 8 := by
  induction vs with
  | nil => simp [byteOperands]
  | cons v vs ih => rw [byteOperands_cons, map₂_isSome, unsignedOperand_isSome, ih, List.forall_mem_cons]

/-- A read's command has the line's register, and its delay or 0 (R95). -/
theorem readOperands_eq_some {reg : Int} {delay : Option Int} {mk : RegAddr → Ticks → Instr} {i : Instr} :
    readOperands reg delay mk = some i ↔
      ∃ r d, i = mk r d ∧ (r.toNat : Int) = reg ∧ (d.toNat : Int) = delay.getD 0 := by
  simp only [readOperands_eq, map₂_eq_some, unsignedOperand_eq_some]

/-- A read without its delay is the read with delay 0 (R95). -/
theorem readOperands_none_eq_some {reg : Int} {mk : RegAddr → Ticks → Instr} {i : Instr} :
    readOperands reg none mk = some i ↔ ∃ r, i = mk r 0 ∧ (r.toNat : Int) = reg := by
  rw [readOperands_eq_some]
  constructor
  · rintro ⟨r, d, rfl, hr, hd⟩
    obtain rfl : d = 0 := BitVec.eq_of_toNat_eq (Int.natCast_inj.mp hd)
    exact ⟨r, rfl, hr⟩
  · rintro ⟨r, rfl, hr⟩
    exact ⟨r, 0, rfl, hr, rfl⟩

/-- A write's command has the line's register and the value's operand. -/
theorem writeOperands_eq_some {w : Nat} {reg : Int} {value : Option (BitVec w)} {mk : RegAddr → BitVec w → Instr}
    {i : Instr} :
    writeOperands reg value mk = some i ↔ ∃ r v, i = mk r v ∧ (r.toNat : Int) = reg ∧ value = some v := by
  simp only [writeOperands_eq, map₂_eq_some, unsignedOperand_eq_some]

/-- An unsigned write's command has the line's numbers. -/
theorem writeOperands_unsigned_eq_some {w : Nat} {reg value : Int} {mk : RegAddr → BitVec w → Instr} {i : Instr} :
    writeOperands reg (unsignedOperand w value) mk = some i ↔
      ∃ r v, i = mk r v ∧ (r.toNat : Int) = reg ∧ (v.toNat : Int) = value := by
  simp only [writeOperands_eq_some, unsignedOperand_eq_some]

/-- A signed write's command has the line's register and the two's complement of its value. -/
theorem writeOperands_signed_eq_some {w : Nat} (hw : 0 < w) {reg value : Int} {mk : RegAddr → BitVec w → Instr}
    {i : Instr} :
    writeOperands reg (signedOperand w value) mk = some i ↔
      ∃ r v, i = mk r v ∧ (r.toNat : Int) = reg ∧ v.toInt = value := by
  simp only [writeOperands_eq_some, signedOperand_eq_some hw]

/-! ### What a line assembles to -/

/-- The five register reads: the line's form and the command's. -/
def readForms : List ((Int → Option Int → AsmLine) × (RegAddr → Ticks → Instr)) :=
  [(.readU8, .readU8), (.readU16Be, .readU16Be), (.readU16Le, .readU16Le), (.readS16Be, .readS16Be),
   (.readS16Le, .readS16Le)]

/-- The five reads assemble alike (R94). -/
theorem assemble_read {x : (Int → Option Int → AsmLine) × (RegAddr → Ticks → Instr)} (hx : x ∈ readForms) (reg : Int)
    (delay : Option Int) : assemble (x.1 reg delay) = readOperands reg delay x.2 := by
  simp only [readForms, List.mem_cons, List.not_mem_nil, or_false] at hx
  rcases hx with rfl | rfl | rfl | rfl | rfl <;> rfl

theorem assemble_bind_eq_some {addr bus : Int} {i : Instr} :
    assemble (.bind addr bus) = some i ↔ ∃ a b, i = .bind a b ∧ (a.toNat : Int) = addr ∧ (b.toNat : Int) = bus := by
  simp only [assemble_bind, map₂_eq_some, unsignedOperand_eq_some]

theorem assemble_writeBytes_eq_some {bytes : List Int} {i : Instr} :
    assemble (.writeBytes bytes) = some i ↔ ∃ len payload, i = .writeBytes len payload ∧ len.toNat = bytes.length ∧
      payload.map (fun b => (b.toNat : Int)) = bytes := by
  simp only [assemble_writeBytes, map₂_eq_some, unsignedOperand_eq_some, byteOperands_eq_some, Int.natCast_inj]

theorem assemble_readBytes_eq_some {n : Int} {i : Instr} :
    assemble (.readBytes n) = some i ↔ ∃ len, i = .readBytes len ∧ (len.toNat : Int) = n := by
  simp only [assemble, Option.map_eq_some_iff, unsignedOperand_eq_some]
  exact exists_congr fun len => and_comm.trans (and_congr_left' eq_comm)

/-- Every assembled command is well formed: LEN is the number of bytes listed (R94, R130). -/
theorem wf_of_assemble {line : AsmLine} {i : Instr} (h : assemble line = some i) : i.wf = true := by
  cases line with
  | bind =>
    obtain ⟨a, b, rfl, -⟩ := assemble_bind_eq_some.mp h
    rfl
  | close | getBus | getAddr =>
    obtain rfl := Option.some.inj h
    rfl
  | writeBytes bytes =>
    obtain ⟨len, payload, rfl, hlen, rfl⟩ := assemble_writeBytes_eq_some.mp h
    simp [Instr.wf, hlen]
  | readBytes =>
    obtain ⟨len, rfl, -⟩ := assemble_readBytes_eq_some.mp h
    rfl
  | readU8 | readU16Be | readU16Le | readS16Be | readS16Le =>
    obtain ⟨r, d, rfl, -⟩ := readOperands_eq_some.mp h
    rfl
  | writeU8 | writeS8 | writeU16Be | writeU16Le | writeS16Be | writeS16Le =>
    obtain ⟨r, v, rfl, -⟩ := writeOperands_eq_some.mp h
    rfl

/-- Settles O55, a lemma for each kind of line. -/
theorem assembledCommandsEncode : Obligations.AssembledCommandsEncode := by
  intro i
  refine ⟨fun _ => wf_of_assemble, fun _ _ => assemble_bind_eq_some, ?_, fun _ => assemble_writeBytes_eq_some,
    fun _ => assemble_readBytes_eq_some, fun x hx reg => ?_, fun reg value => ⟨?_, ?_, ?_, ?_⟩⟩
  · simp only [assemble, Option.some.injEq, eq_comm, and_self]
  · change x ∈ readForms at hx
    simp only [assemble_read hx]
    exact ⟨fun _ => readOperands_eq_some, readOperands_none_eq_some⟩
  · exact writeOperands_unsigned_eq_some
  · exact writeOperands_signed_eq_some (by decide)
  · simp only [List.forall_mem_cons, List.not_mem_nil, false_implies, implies_true, and_true]
    exact ⟨writeOperands_unsigned_eq_some, writeOperands_unsigned_eq_some⟩
  · simp only [List.forall_mem_cons, List.not_mem_nil, false_implies, implies_true, and_true]
    exact ⟨writeOperands_signed_eq_some (by decide), writeOperands_signed_eq_some (by decide)⟩

/-! ### When a line assembles -/

theorem readOperands_isSome {reg : Int} {delay : Option Int} {mk : RegAddr → Ticks → Instr} :
    (readOperands reg delay mk).isSome = true ↔ (0 ≤ reg ∧ reg < 2 ^ 8) ∧ 0 ≤ delay.getD 0 ∧ delay.getD 0 < 2 ^ 32 := by
  rw [readOperands_eq, map₂_isSome, unsignedOperand_isSome, unsignedOperand_isSome]

theorem writeOperands_isSome {w : Nat} {reg : Int} {value : Option (BitVec w)} {mk : RegAddr → BitVec w → Instr} :
    (writeOperands reg value mk).isSome = true ↔ (0 ≤ reg ∧ reg < 2 ^ 8) ∧ value.isSome = true := by
  rw [writeOperands_eq, map₂_isSome, unsignedOperand_isSome]

/-- Settles O56: the operands' ranges, with the literal bounds of R94. -/
theorem assemblerRanges : Obligations.AssemblerRanges := by
  refine ⟨fun addr bus => ?_, ?_, fun bytes => ?_, fun n => ?_, fun line hl reg => ?_, ?_⟩
  · rw [assemble_bind, map₂_isSome, unsignedOperand_isSome, unsignedOperand_isSome]
    omega
  · simp [assemble]
  · rw [assemble_writeBytes, map₂_isSome, unsignedOperand_isSome, byteOperands_isSome, and_comm]
    refine and_congr (forall₂_congr fun b _ => ?_) ?_ <;> omega
  · rw [assemble, Option.isSome_map, unsignedOperand_isSome]
    omega
  · obtain ⟨x, hx, rfl⟩ : ∃ x ∈ readForms, x.1 = line := List.mem_map.mp hl
    simp only [assemble_read hx, readOperands_isSome, Option.getD_some, Option.getD_none]
    exact ⟨fun delay => by omega, by omega⟩
  · simp only [List.forall_mem_cons, List.not_mem_nil, false_implies, implies_true, and_true, assemble,
      writeOperands_isSome, unsignedOperand_isSome, signedOperand_isSome]
    refine ⟨?_, ?_, ?_, ?_, ?_, ?_⟩ <;> intro reg value <;> omega

end Sys2Proof.Machine
end

section
/-! SUPPORT. BIND, CLOSE and the accessors (spec/40_lifecycle.md), and one binding per lifetime (R112). -/

namespace Sys2Proof.Machine

/-! ### Rejection -/

/-- How the acceptance check treats each command (R208); `exec_of_idle` ties it to `exec`. -/
def admissionOf : Instr → Admission
  | .bind _ _ => .construct
  | .getBus | .getAddr => .accessor
  | _ => .channel

theorem registerRead_of_idle {s : State} {w : CmdWord} {reg : RegAddr} {n : Len} {delay : Ticks}
    {conv : Buf → ResultWord} (hp : s.phase = .idle) :
    ∃ go, s.registerRead w reg n delay conv = s.accept .channel go :=
  ⟨_, by simp only [State.registerRead, hp]; rfl⟩

theorem registerWrite_of_idle {s : State} {w : CmdWord} {frame : List Byte} (hp : s.phase = .idle) :
    ∃ go, s.registerWrite w frame = s.accept .channel go :=
  ⟨_, by simp only [State.registerWrite, hp]; rfl⟩

/-- In IDLE every command goes through the acceptance check of its kind. -/
theorem exec_of_idle (i : Instr) {s : State} (hp : s.phase = .idle) :
    ∃ go, exec i s = s.accept (admissionOf i) go := by
  cases i with
  | bind => exact ⟨_, by simp only [exec, execBind, hp]; rfl⟩
  | close => exact ⟨_, by simp only [exec, execClose, hp]; rfl⟩
  | getBus => exact ⟨_, by simp only [exec, execGetBus, hp]; rfl⟩
  | getAddr => exact ⟨_, by simp only [exec, execGetAddr, hp]; rfl⟩
  | writeBytes => exact ⟨_, by simp only [exec, execWriteBytes, hp]; rfl⟩
  | readBytes => exact ⟨_, by simp only [exec, execReadBytes, hp]; rfl⟩
  | readU8 | readU16Be | readU16Le | readS16Be | readS16Le => exact registerRead_of_idle hp
  | writeU8 | writeS8 | writeU16Be | writeU16Le | writeS16Be | writeS16Le => exact registerWrite_of_idle hp

/-- A command that the lifecycle check faults answers the check's response and does nothing else (R207, R208). -/
theorem exec_of_lifecycleFault {i : Instr} {s : State} {st : Status} {info : Info} (hp : s.phase = .idle)
    (hf : lifecycleFault (admissionOf i) s.lifecycle = some (st, info)) :
    exec i s = .next { s with outputs := s.outputs ++ [.response ⟨responseWord st 0 info, []⟩] } := by
  obtain ⟨go, hgo⟩ := exec_of_idle i hp
  rw [hgo, ← respond_of_idle hp, ← raise_of_lifecycleFault hf]
  simp [State.accept, hf]

/-! ### BIND and CLOSE -/

theorem exec_bind_of_error {addr : DevAddr} {bus : BusId} {s : State} {info : Info} {rest : List Event}
    (hp : s.phase = .bindWait) (he : s.events = .bindReply true info :: rest) :
    exec (.bind addr bus) s = .next ((s.takeReply rest).respond .bindError 0 info []) := by
  simp only [exec, execBind, hp]
  exact awaitReply_of_reply _ he rfl

theorem exec_close_of_error {s : State} {info : Info} {rest : List Event} (hp : s.phase = .releaseWait)
    (he : s.events = .releaseReply true info :: rest) :
    exec .close s = .next ((s.takeReply rest).closeChannel.forgetBuf.respond .transferError 0 info []) := by
  simp only [exec, execClose, hp]
  exact awaitReply_of_reply _ he rfl

/-- Settles O9, phase by phase; after the response CMDREG and BUF hold what they held. -/
theorem bindEffect : Obligations.BindEffect := fun addr bus s =>
  ⟨wordB_toNat _ addr bus, exec_bind_of_unbound,
    fun hp hl => exec_of_lifecycleFault hp (by rw [hl]; rfl),
    fun hp hl => exec_of_lifecycleFault hp (by rw [hl]; rfl),
    fun _ _ hp he => ⟨s.cmdreg, s.buf, exec_bind_of_ok hp he⟩,
    fun _ _ hp he => ⟨s.cmdreg, s.buf, exec_bind_of_error hp he⟩⟩

/-- Settles O10, phase by phase; a failing CLOSE leaves BUF free (R23). -/
theorem closeEffect : Obligations.CloseEffect := fun s =>
  ⟨wordN_toNat _, exec_close_of_opened,
    fun hp hl => exec_of_lifecycleFault hp (by rw [hl]; rfl),
    fun hp hl => exec_of_lifecycleFault hp (by rw [hl]; rfl),
    fun _ _ hp he => ⟨s.cmdreg, s.buf, exec_close_of_ok hp he⟩,
    fun _ _ hp he => ⟨s.cmdreg, s.forgetBuf.buf, s.forgetBuf.freeIx, exec_close_of_error hp he⟩⟩

/-! ### The accessors -/

/-- The accessors are answered in Open and in Closed (R206, R208). -/
theorem lifecycleFault_accessor {l : Lifecycle} (h : l = .opened ∨ l = .closed) : lifecycleFault .accessor l = none := by
  rcases h with rfl | rfl <;> rfl

theorem exec_getBus_of_bound {s : State} (hp : s.phase = .idle) (hl : s.lifecycle = .opened ∨ s.lifecycle = .closed) :
    exec .getBus s = .next (s.respond .ok 0 s.bus []) := by
  simp only [exec, execGetBus, hp]
  exact accept_of_none _ (lifecycleFault_accessor hl)

theorem exec_getAddr_of_bound {s : State} (hp : s.phase = .idle) (hl : s.lifecycle = .opened ∨ s.lifecycle = .closed) :
    exec .getAddr s = .next (s.respond .ok 0 (s.addr.zeroExtend 32) []) := by
  simp only [exec, execGetAddr, hp]
  exact accept_of_none _ (lifecycleFault_accessor hl)

/-- Settles O11, by the acceptance check: the accessor's answer is one more output. -/
theorem getBusEffect : Obligations.GetBusEffect := fun s =>
  ⟨wordN_toNat _, fun hp hl => by rw [exec_getBus_of_bound hp hl, respond_of_idle hp],
    fun hp hl => exec_of_lifecycleFault hp (by rw [hl]; rfl)⟩

/-- Settles O12, as O11; the zero-extension is ADDR's number. -/
theorem getAddrEffect : Obligations.GetAddrEffect := fun s =>
  ⟨wordN_toNat _,
    fun hp hl => ⟨s.addr.zeroExtend 32, BitVec.toNat_setWidth_of_le (by decide),
      by rw [exec_getAddr_of_bound hp hl, respond_of_idle hp]⟩,
    fun hp hl => exec_of_lifecycleFault hp (by rw [hl]; rfl)⟩

/-! ### One binding per lifetime (R112) -/

/-- From `s` to `t` BUS and ADDR stand and no bind is requested. -/
def KeepsBinding (s t : State) : Prop :=
  t.bus = s.bus ∧ t.addr = s.addr ∧
    ∃ os, t.outputs = s.outputs ++ os ∧ ∀ bus addr, Output.request (.bind bus addr) ∉ os

theorem KeepsBinding.of_silent {s t : State} (hb : t.bus = s.bus) (ha : t.addr = s.addr) (ho : t.outputs = s.outputs) :
    KeepsBinding s t :=
  ⟨hb, ha, [], by simp [ho], by simp⟩

/-- Only the moves of BIND touch the binding, and those start in Unbound or end BIND_WAIT. -/
theorem Move.keepsBinding {i : Instr} {s t : State} (hm : Move i s t) (hl : s.lifecycle ≠ .unbound)
    (hb : s.phase ≠ .bindWait) : KeepsBinding s t := by
  cases hm with
  | startsBind _ _ hu => exact absurd hu hl
  | bound hp => exact absurd hp hb
  | starts _ _ _ _ _ _ hn => exact ⟨rfl, rfl, _, rfl, by simpa [eq_comm] using hn⟩
  | stays | ticked => exact .of_silent rfl rfl rfl
  | rejected | answered | bindFailed | released | releaseFailed | selected | settled | failed =>
    exact ⟨rfl, rfl, _, rfl, by simp⟩
  | wrote | got => exact ⟨rfl, rfl, _, List.append_assoc _ _ _, by simp⟩

/-- Outside Unbound nothing waits for a bind (R38 item 1). -/
theorem State.Inv.ne_bindWait {s : State} (h : s.Inv) (hl : s.lifecycle ≠ .unbound) : s.phase ≠ .bindWait := by
  obtain ⟨hb, -⟩ := h
  exact mt hb hl

/-- No step but a reset touches the binding of a bound block. -/
theorem step_keepsBinding {s t : State} (hs : s.Inv) (hl : s.lifecycle ≠ .unbound)
    (hr : ∀ rest, s.events ≠ .reset :: rest) (h : step s = .next t) : KeepsBinding s t := by
  have hb := hs.ne_bindWait hl
  rcases step_move h with ha | ⟨-, -, -, rfl⟩ | ⟨-, -, c, rest, i, -, hm⟩ | ⟨-, -, i, hm⟩
  · rcases ambient_some ha with ⟨rest, he, -⟩ | ⟨c, rest, -, rfl⟩ | ⟨rest, -, -, rfl⟩ | ⟨e, rest, -, -, -, -, rfl⟩
    · exact absurd he (hr rest)
    all_goals exact .of_silent rfl rfl rfl
  · exact .of_silent rfl rfl rfl
  · exact hm.keepsBinding hl hb
  · exact hm.keepsBinding hl hb

/-- The rows of R33 without a reset never lead to Unbound. -/
theorem LifecycleFollows.ne_unbound {s t : State} (hf : LifecycleFollows s t) (hl : s.lifecycle ≠ .unbound) :
    t.lifecycle ≠ .unbound := by
  by_cases hb : s.Binds
  · simp [hf.onBind hb]
  by_cases hr : s.Releases
  · simp [hf.onRelease hr]
  rwa [hf.otherwise hb hr]

/-- Settles O33, by `step_keepsBinding` and the table of R33. -/
theorem bindingFixedForLifetime : Obligations.BindingFixedForLifetime := by
  intro s t hs hl hr h
  obtain ⟨hbus, haddr, hos⟩ := step_keepsBinding hs hl hr h
  refine ⟨hbus, haddr, ?_, hos⟩
  rcases step_lifecycle h with ⟨rest, he, -⟩ | ⟨-, hf⟩
  · exact absurd he (hr rest)
  · exact hf.ne_unbound hl

end Sys2Proof.Machine
end

section
/-! SUPPORT. The raw transfers (spec/41_raw_transfer.md): what WRITE_BYTES and READ_BYTES answer to a failing reply, and their
effects. -/

namespace Sys2Proof.Machine

theorem exec_writeBytes_of_error {len : Len} {payload : List Byte} {s : State} {info : Info} {count : Len}
    {rest : List Event} (hp : s.phase = .dataWait) (he : s.events = .writeReply true info count :: rest) :
    exec (.writeBytes len payload) s = .next ((s.takeReply rest).forgetBuf.respond .transferError count info []) := by
  simp only [exec, execWriteBytes, hp]
  exact awaitReply_of_reply _ he rfl

/-- Of the data beside a failing READ_BYTES only the bound LEN is known (R91). -/
theorem exec_readBytes_of_error {len : Len} {s : State} {info : Info} {count : Len} {data : List Byte}
    {rest : List Event} (hp : s.phase = .dataWait) (he : s.events = .readReply true info count data :: rest) :
    ∃ got : List Byte, got.length ≤ len.toNat ∧
      exec (.readBytes len) s = .next ((s.takeReply rest).forgetBuf.respond .transferError count info got) := by
  refine ⟨(Config.freeData s.freeIx).take len.toNat, List.length_take_le _ _, ?_⟩
  simp only [exec, execReadBytes, hp]
  exact awaitReply_of_reply _ he rfl

/-- An event and the response after it are two more outputs, in that order (R28, S13). -/
theorem emit_respond (s : State) (o : Output) (st : Status) (count : Len) (result : ResultWord) (data : List Byte) :
    (s.emit o).respond st count result data =
      { s with phase := .idle, outputs := s.outputs ++ [o, .response ⟨responseWord st count result, data⟩] } := by
  simp [State.emit, State.respond]

/-- Settles O13, the acceptance and the two replies; a failing write leaves BUF free (R23). -/
theorem writeBytesEffect : Obligations.WriteBytesEffect := fun _ _ s =>
  ⟨exec_writeBytes_of_opened,
    fun _ _ _ hp he hc => by rw [exec_writeBytes_of_ok hp he hc, emit_respond]; rfl,
    fun _ _ _ hp he => ⟨s.forgetBuf.buf, s.forgetBuf.freeIx, exec_writeBytes_of_error hp he⟩⟩

/-- Settles O14, the acceptance and the two replies; a failing read leaves BUF and, up to LEN bytes, the data free. -/
theorem readBytesEffect : Obligations.ReadBytesEffect := fun _ s =>
  ⟨exec_readBytes_of_opened,
    fun _ _ _ hp he hd => by rw [exec_readBytes_of_ok hp he hd, emit_respond]; rfl,
    fun _ _ _ _ hp he =>
      let ⟨got, hlen, hgot⟩ := exec_readBytes_of_error hp he
      ⟨s.forgetBuf.buf, s.forgetBuf.freeIx, got, hlen, hgot⟩⟩

end Sys2Proof.Machine
end

section
/-! SUPPORT. The converter (spec/42_converter.md): its functions as concatenations of bytes, and the extensions to RESULT. -/

namespace Sys2Proof.Machine

/-! ### The converter by bytes (R140 to R143) -/

theorem be16_eq_append (b0 b1 : Byte) : be16 b0 b1 = b0 ++ b1 := by
  apply BitVec.eq_of_toNat_eq
  rw [be16_toNat, toNat_append_add]

theorem swap16_append (b0 b1 : Byte) : swap16 (b0 ++ b1) = b1 ++ b0 :=
  congrArg₂ (· ++ ·) (lo8_append b0 b1) (hi8_append b0 b1)

theorem le16_eq_append (b0 b1 : Byte) : le16 b0 b1 = b1 ++ b0 := by
  rw [le16, be16_eq_append, swap16_append]

theorem le16Bytes_eq (v : Half) : le16Bytes v = [lo8 v, hi8 v] :=
  congrArg₂ (fun x y => [x, y]) (hi8_swap16 v) (lo8_swap16 v)

/-- Settles O45, a lemma for each function. -/
theorem converterByBytes : Obligations.ConverterByBytes :=
  ⟨be16_eq_append, le16_eq_append, swap16_append,
    fun b0 b1 => ⟨by rw [be16Bytes, hi8_append, lo8_append], by rw [le16Bytes_eq, hi8_append, lo8_append]⟩⟩

/-! ### The swap (R146) -/

theorem swap16_swap16 (v : Half) : swap16 (swap16 v) = v := by
  calc swap16 (swap16 v) = lo8 (swap16 v) ++ hi8 (swap16 v) := rfl
    _ = hi8 v ++ lo8 v := by rw [lo8_swap16, hi8_swap16]
    _ = v := hi8_append_lo8 v

/-- Settles O46: the two bytes of a fixed point are equal. -/
theorem swapInvolution : Obligations.SwapInvolution := by
  refine ⟨swap16_swap16, fun b => swap16_append b b, fun v h => ⟨lo8 v, ?_, ?_⟩⟩
  · have hb : hi8 v = lo8 v := by rw [← lo8_swap16, h]
    calc v = hi8 v ++ lo8 v := (hi8_append_lo8 v).symm
      _ = lo8 v ++ lo8 v := by rw [hb]
  · rintro b rfl
    exact (lo8_append b b).symm

/-! ### Round trips (R147, R148) -/

theorem be16_hi8_lo8 (v : Half) : be16 (hi8 v) (lo8 v) = v :=
  (be16_eq_append _ _).trans (hi8_append_lo8 v)

theorem le16_lo8_hi8 (v : Half) : le16 (lo8 v) (hi8 v) = v :=
  (le16_eq_append _ _).trans (hi8_append_lo8 v)

/-- Settles O47: both readers concatenate, both writers split, so each trip is `hi8_append_lo8` or the bytes of an append. -/
theorem converterRoundTrips : Obligations.ConverterRoundTrips := fun v b0 b1 =>
  ⟨le16Bytes_eq v, be16_hi8_lo8 v, le16_lo8_hi8 v, be16_eq_append _ _, le16_eq_append _ _,
    by rw [be16_eq_append, be16Bytes, hi8_append, lo8_append],
    by rw [le16_eq_append, le16Bytes_eq, hi8_append, lo8_append]⟩

/-! ### Extension to RESULT (R144, R149) -/

theorem zext8_toNat (b : Byte) : (zext8 b).toNat = b.toNat := BitVec.toNat_setWidth_of_le (by decide)
theorem zext16_toNat (v : Half) : (zext16 v).toNat = v.toNat := BitVec.toNat_setWidth_of_le (by decide)
theorem sext16_toInt (v : Half) : (sext16 v).toInt = v.toInt := BitVec.toInt_signExtend_of_le (by decide)

/-- The copies of the sign stand above the low 16 bits. -/
theorem sext16_toNat_mod (v : Half) : (sext16 v).toNat % 2 ^ 16 = v.toNat := by
  have hv := v.isLt
  rw [sext16, BitVec.toNat_signExtend, BitVec.toNat_setWidth_of_le (by decide)]
  split <;> omega

/-- Settles O48, by the lemma of each extension. -/
theorem resultExtension : Obligations.ResultExtension :=
  ⟨zext8_toNat, zext16_toNat, sext16_toInt, fun v =>
    ⟨sext16_toNat_mod v, by rw [zext16_toNat, Nat.mod_eq_of_lt v.isLt]⟩⟩

end Sys2Proof.Machine
end

section
/-! SUPPORT. A register write forwards, phase by phase (S1, S11, S13); signed and unsigned writes (R145). -/

namespace Sys2Proof.Machine

/-- Waiting lets the state stand while no reply has arrived (R30). -/
theorem awaitReply_of_no_reply {s : State} (k : Event → State → Out)
    (hn : ∀ e rest, s.events = e :: rest → e.isReply = false) : s.awaitReply k = .next s := by
  unfold State.awaitReply
  split
  next => rfl
  next e rest he => simp [hn e rest he]

theorem accept_of_lifecycleFault {s : State} {a : Admission} {st : Status} {info : Info} (go : State → State)
    (hf : lifecycleFault a s.lifecycle = some (st, info)) : s.accept a go = .next (s.respond st 0 info []) := by
  rw [← raise_of_lifecycleFault hf]
  simp [State.accept, hf]

section
variable {s : State} (w : CmdWord) {frame : List Byte}

theorem registerWrite_of_lifecycleFault {st : Status} {info : Info} (hp : s.phase = .idle)
    (hf : lifecycleFault .channel s.lifecycle = some (st, info)) :
    s.registerWrite w frame = .next (s.respond st 0 info []) := by
  simp only [State.registerWrite, hp]
  exact accept_of_lifecycleFault _ hf

theorem registerWrite_of_opened (hp : s.phase = .idle) (hl : s.lifecycle = .opened) :
    s.registerWrite w frame = .next (((s.latch w).fillBuf frame).issue (.write frame) .dataWait) := by
  simp only [State.registerWrite, hp]
  exact accept_of_none _ (by rw [hl]; rfl)

theorem registerWrite_of_ok {info : Info} {count : Len} {rest : List Event} (hp : s.phase = .dataWait)
    (he : s.events = .writeReply false info count :: rest) (hc : count.toNat = frame.length) :
    s.registerWrite w frame =
      .next (((s.takeReply rest).emit (.trace ⟨.write, byteCount frame, frame, none⟩)).respond .ok 0 0 []) := by
  simp only [State.registerWrite, hp]
  exact awaitWrite_of_ok _ _ he hc

theorem registerWrite_of_error {info : Info} {count : Len} {rest : List Event} (hp : s.phase = .dataWait)
    (he : s.events = .writeReply true info count :: rest) :
    s.registerWrite w frame = .next ((s.takeReply rest).forgetBuf.respond .transferError 0 info []) := by
  simp only [State.registerWrite, hp]
  exact awaitReply_of_reply _ he rfl

theorem registerWrite_of_no_reply (hp : s.phase = .dataWait)
    (hn : ∀ e rest, s.events = e :: rest → e.isReply = false) : s.registerWrite w frame = .next s := by
  simp only [State.registerWrite, hp]
  exact awaitReply_of_no_reply _ hn

end

/-- What a register write does depends on its frame alone: its word shows in CMDREG only, and CMDREG is not read (R145). -/
theorem registerWrite_of_frame {s t : State} {w w' c : CmdWord} (c' : CmdWord) {frame : List Byte}
    (h : ({ s with cmdreg := w } : State).registerWrite c frame = .next t) :
    ∃ cmd, ({ s with cmdreg := w' } : State).registerWrite c' frame = .next { t with cmdreg := cmd } := by
  rcases registerWrite_next h with ⟨hp, st, info, hf, rfl⟩ | ⟨hp, hl, rfl⟩ | ⟨hp, info, count, rest, he, hc, rfl⟩ |
    ⟨hp, info, count, rest, he, rfl⟩ | ⟨hp, rfl, hn⟩
  · exact ⟨w', registerWrite_of_lifecycleFault c' hp hf⟩
  · exact ⟨c', registerWrite_of_opened c' hp hl⟩
  · exact ⟨w', registerWrite_of_ok c' hp he hc⟩
  · exact ⟨w', registerWrite_of_error c' hp he⟩
  · exact ⟨w', registerWrite_of_no_reply c' hp hn⟩

/-- Settles O44, by `registerWrite_of_frame`: a signed write has its unsigned write's frame. -/
theorem signedWritesEqualUnsigned : Obligations.SignedWritesEqualUnsigned := by
  intro reg b v s w w' x hx t h
  simp only [List.mem_cons, List.not_mem_nil, or_false] at hx
  rcases hx with rfl | rfl | rfl
  · exact registerWrite_of_frame (Instr.writeS8 reg b).word h
  · exact registerWrite_of_frame (Instr.writeS16Be reg v).word h
  · exact registerWrite_of_frame (Instr.writeS16Le reg v).word h

end Sys2Proof.Machine
end

section
/-! SUPPORT. What is written to the Reference Device is read back (R73), and the register read that gets it (R148). -/

namespace Sys2Proof.Machine

/-! ### The Reference Device -/

theorem RefDevice.answer_write {d : RefDevice} (hf : d.failW = false) (bytes : List Byte) :
    d.answer (.write bytes) = (d.store bytes, .writeReply false 0 (byteCount bytes)) := by
  simp [RefDevice.answer, hf]

theorem RefDevice.answer_read {d : RefDevice} (hf : d.failR = false) (n : Len) :
    d.answer (.read n) = (d, .readReply false 0 n (d.fetchFrom 0 n.toNat)) := by
  simp [RefDevice.answer, hf]

/-- Bytes stored from offset `k` on, without coming round to an earlier offset `j`, leave the register at `j`. -/
theorem read_storeFrom_of_lt {m : Memory} (h : m.wf = true) (p : Byte) {j k : Nat} {bytes : List Byte} (hj : j < k)
    (hk : k + bytes.length ≤ 256) :
    (storeFrom m p k bytes).read ((p.toNat + j) % 256) = m.read ((p.toNat + j) % 256) := by
  induction bytes generalizing m k with
  | nil => rfl
  | cons b rest ih =>
    rw [List.length_cons] at hk
    have hne : (p.toNat + j) % 256 ≠ (p.toNat + k) % 256 := by omega
    calc (storeFrom m p k (b :: rest)).read ((p.toNat + j) % 256)
        = (m.write ((p.toNat + k) % 256) b).read ((p.toNat + j) % 256) :=
          ih (Memory.wf_write h _ b) (by omega) (by omega)
      _ = m.read ((p.toNat + j) % 256) := by rw [Memory.read_write h, if_neg hne]

/-- Bytes stored from an offset are fetched again from there, while they do not overtake themselves. -/
theorem RefDevice.fetchFrom_stored {d : RefDevice} {m : Memory} (h : m.wf = true) {k : Nat} {bytes : List Byte}
    (hd : d.mem = storeFrom m d.ptr k bytes) (hk : k + bytes.length ≤ 256) :
    d.fetchFrom k bytes.length = bytes := by
  induction bytes generalizing m k with
  | nil => rfl
  | cons b rest ih =>
    rw [List.length_cons] at hk
    have hwf := Memory.wf_write h ((d.ptr.toNat + k) % 256) b
    have hb : d.peek k = b := by
      rw [RefDevice.peek, hd, storeFrom, read_storeFrom_of_lt hwf d.ptr k.lt_succ_self (by omega),
        Memory.read_write h, if_pos rfl]
    exact congrArg₂ List.cons hb (ih hwf hd (by omega))

theorem RefDevice.fetchFrom_selected {d : RefDevice} (h : d.mem.wf = true) (reg : RegAddr) {data : List Byte}
    (hl : data.length ≤ 256) : ((d.store (reg :: data)).store [reg]).fetchFrom 0 data.length = data :=
  RefDevice.fetchFrom_stored h rfl (by omega)

/-- A frame written, its register selected, and as many bytes read: the reply is the frame's data (R73). -/
theorem RefDevice.answers_written {d : RefDevice} (h : d.mem.wf = true) (hw : d.failW = false) (hr : d.failR = false)
    (reg : RegAddr) {data : List Byte} {n : Len} (hn : data.length = n.toNat) (hl : data.length ≤ 256) :
    (((d.answer (.write (reg :: data))).1.answer (.write [reg])).1.answer (.read n)).2 =
      .readReply false 0 n data := by
  calc (((d.answer (.write (reg :: data))).1.answer (.write [reg])).1.answer (.read n)).2
      = (((d.store (reg :: data)).store [reg]).answer (.read n)).2 := by
        rw [RefDevice.answer_write hw, RefDevice.answer_write (d := d.store (reg :: data)) hw]
    _ = .readReply false 0 n (((d.store (reg :: data)).store [reg]).fetchFrom 0 n.toNat) :=
        congrArg Prod.snd (RefDevice.answer_read (d := (d.store (reg :: data)).store [reg]) hr n)
    _ = .readReply false 0 n data := by rw [← hn, RefDevice.fetchFrom_selected h reg hl]

/-! ### The register read -/

/-- A register read at the reply with its data (S13). -/
theorem registerRead_of_ok {s : State} {w : CmdWord} {reg : RegAddr} {n : Len} {delay : Ticks} {conv : Buf → ResultWord}
    {info : Info} {data : List Byte} {rest : List Event} (hp : s.phase = .dataWait)
    (he : s.events = .readReply false info n data :: rest) (hd : data.length = n.toNat) :
    s.registerRead w reg n delay conv =
      .next ((((s.takeReply rest).fillBuf data).emit (.trace ⟨.read, n, data, some delay⟩)).respond .ok 0
        (conv (s.buf.fill data)) []) := by
  simp only [State.registerRead, hp]
  exact awaitRead_of_ok _ _ he rfl hd

/-- After a frame with two bytes is written to the device and its register selected, a word read answers the bytes'
conversion. -/
theorem registerRead_loopback {d : RefDevice} (h : d.mem.wf = true) (hw : d.failW = false) (hr : d.failR = false)
    {s : State} {rest : List Event} (hp : s.phase = .dataWait) (w : CmdWord) (reg : RegAddr) (delay : Ticks)
    {conv : Buf → ResultWord} {data : List Byte} {result : ResultWord} (hd : data.length = 2)
    (hc : conv (s.buf.fill data) = result)
    (he : s.events =
      (((d.answer (.write (reg :: data))).1.answer (.write [reg])).1.answer (.read 2)).2 :: rest) :
    ∃ t, s.registerRead w reg 2 delay conv = .next t ∧
      responsesIn t.outputs = responsesIn s.outputs ++ [⟨responseWord .ok 0 result, []⟩] := by
  rw [RefDevice.answers_written h hw hr reg hd (by omega)] at he
  exact ⟨_, registerRead_of_ok hp he hd, by simp [hc]⟩

/-- A little-endian word read of a value's little-endian bytes answers the value, zero-extended (R148, R144). -/
theorem resultU16Le_fill (b : Buf) (v : Half) : resultU16Le (b.fill (le16Bytes v)) = zext16 v := by
  rw [le16Bytes_eq]
  exact congrArg zext16 (le16_lo8_hi8 v)

/-- As `resultU16Le_fill`, of the big-endian pair. -/
theorem resultU16Be_fill (b : Buf) (v : Half) : resultU16Be (b.fill (be16Bytes v)) = zext16 v :=
  congrArg zext16 (be16_hi8_lo8 v)

/-- Settles O53: the device hands back the frame's two bytes, and the read undoes the write's byte order. -/
theorem loopbackRoundTrip : Obligations.LoopbackRoundTrip := by
  intro d reg v delay s rest h hw hr hp x hx frame sel req hframe hsel hreq he
  simp only [List.mem_cons, List.not_mem_nil, or_false] at hx
  rcases hx with rfl | rfl
  · cases hframe; cases hsel; cases hreq
    exact registerRead_loopback h hw hr hp (Instr.readU16Le reg delay).word reg delay rfl (resultU16Le_fill _ v) he
  · cases hframe; cases hsel; cases hreq
    exact registerRead_loopback h hw hr hp (Instr.readU16Be reg delay).word reg delay rfl (resultU16Be_fill _ v) he

end Sys2Proof.Machine
end

section
/-! SUPPORT. The register reads (spec/43_register_read.md): one protocol forwards, phase by phase (S1, S7 to S10, S13), its five
results, and whole reads as runs. -/

namespace Sys2Proof.Machine

/-! ### A register read forwards, phase by phase -/

section
variable {s : State} (w : CmdWord) {reg : RegAddr} {n : Len} {delay : Ticks} (conv : Buf → ResultWord)

theorem registerRead_of_lifecycleFault {st : Status} {info : Info} (hp : s.phase = .idle)
    (hf : lifecycleFault .channel s.lifecycle = some (st, info)) :
    s.registerRead w reg n delay conv = .next (s.respond st 0 info []) := by
  simp only [State.registerRead, hp]
  exact accept_of_lifecycleFault _ hf

theorem registerRead_of_opened (hp : s.phase = .idle) (hl : s.lifecycle = .opened) :
    s.registerRead w reg n delay conv =
      .next (((s.latch w).fillBuf [reg]).issue (.write [reg]) .selectWait) := by
  simp only [State.registerRead, hp]
  exact accept_of_none _ (by rw [hl]; rfl)

theorem registerRead_of_select_ok {info : Info} {count : Len} {rest : List Event} (hp : s.phase = .selectWait)
    (he : s.events = .writeReply false info count :: rest) (hc : count.toNat = 1) :
    s.registerRead w reg n delay conv =
      .next (((s.takeReply rest).emit (.trace ⟨.write, 1, [reg], none⟩)).startSettle delay) := by
  simp only [State.registerRead, hp]
  exact awaitWrite_of_ok _ _ he hc

theorem registerRead_of_select_error {info : Info} {count : Len} {rest : List Event} (hp : s.phase = .selectWait)
    (he : s.events = .writeReply true info count :: rest) :
    s.registerRead w reg n delay conv =
      .next ((s.takeReply rest).forgetBuf.respond .transferError 0 info []) := by
  simp only [State.registerRead, hp]
  exact awaitReply_of_reply _ he rfl

theorem registerRead_of_settle (hp : s.phase = .settle) :
    s.registerRead w reg n delay conv = s.settleStep n := by
  simp only [State.registerRead, hp]

theorem registerRead_of_tick {rest : List Event} (hp : s.phase = .settle) (ht : s.tmr ≠ 0)
    (he : s.events = .tick :: rest) : s.registerRead w reg n delay conv = .next (s.countDown rest) := by
  rw [registerRead_of_settle w conv hp, State.settleStep, if_neg ht, he]

theorem registerRead_of_settled (hp : s.phase = .settle) (ht : s.tmr = 0) :
    s.registerRead w reg n delay conv = .next (s.issue (.read n) .dataWait) := by
  rw [registerRead_of_settle w conv hp, State.settleStep, if_pos ht]

theorem registerRead_of_read_error {info : Info} {count : Len} {data : List Byte} {rest : List Event}
    (hp : s.phase = .dataWait) (he : s.events = .readReply true info count data :: rest) :
    s.registerRead w reg n delay conv =
      .next ((s.takeReply rest).forgetBuf.respond .transferError 0 info []) := by
  simp only [State.registerRead, hp]
  exact awaitReply_of_reply _ he rfl

/-- While no reply has arrived a `_WAIT` phase of a register read stands (R30). -/
theorem registerRead_of_no_reply (hp : s.phase = .selectWait ∨ s.phase = .dataWait)
    (hn : ∀ e rest, s.events = e :: rest → e.isReply = false) : s.registerRead w reg n delay conv = .next s := by
  rcases hp with hp | hp <;> simp only [State.registerRead, hp]
  · exact awaitReply_of_no_reply _ hn
  · exact awaitReply_of_no_reply _ hn

end

/-! ### The select write and the five results -/

/-- Settles O15, phase by phase; a failing select leaves BUF free (R23). -/
theorem readSelectsRegister : Obligations.ReadSelectsRegister := by
  intro reg delay s x hx
  rw [exec_of_registerReads hx]
  exact ⟨registerRead_of_opened _ _,
    fun info rest hp he => registerRead_of_select_ok _ _ hp he rfl,
    fun info count rest hp he =>
      ⟨s.forgetBuf.buf, s.forgetBuf.freeIx, registerRead_of_select_error _ _ hp he⟩⟩

/-- Settles O19: a failing read leaves BUF free (R23). -/
theorem readDataFailure : Obligations.ReadDataFailure := by
  intro reg delay s x hx info count data rest hp he
  rw [exec_of_registerReads hx]
  exact ⟨s.forgetBuf.buf, s.forgetBuf.freeIx, registerRead_of_read_error _ _ hp he⟩

/-- A register read whose data has arrived, with the two outputs it ends on. -/
theorem registerRead_of_data {s : State} (w : CmdWord) (reg : RegAddr) {n : Len} {delay : Ticks} {conv : Buf → ResultWord}
    {info : Info} {data : List Byte} {rest : List Event} {b : Buf} {r : ResultWord} (hp : s.phase = .dataWait)
    (he : s.events = .readReply false info n data :: rest) (hd : data.length = n.toNat) (hb : s.buf.fill data = b)
    (hr : conv b = r) :
    s.registerRead w reg n delay conv = .next { s with
      phase := .idle
      pending := none
      events := rest
      buf := b
      outputs := s.outputs ++ [.trace ⟨.read, n, data, some delay⟩, .response ⟨responseWord .ok 0 r, []⟩] } := by
  subst hb hr
  rw [registerRead_of_ok hp he hd, emit_respond]
  rfl

/-- Settles O17: the result is the byte, zero-extended. -/
theorem readU8Result : Obligations.ReadU8Result := fun reg _ _ _ b0 _ hp he =>
  ⟨zext8 b0, zext8_toNat b0, registerRead_of_data _ reg hp he rfl rfl rfl⟩

/-- Settles O18: the converter puts the two bytes in order, and the extension is the command's. -/
theorem readWordResults : Obligations.ReadWordResults := by
  intro reg delay s info b0 b1 rest hp he x hx
  simp only [List.mem_cons, List.not_mem_nil, or_false] at hx
  rcases hx with rfl | rfl | rfl | rfl
  · exact registerRead_of_data _ reg hp he rfl rfl (congrArg zext16 (be16_eq_append b0 b1))
  · exact registerRead_of_data _ reg hp he rfl rfl (congrArg zext16 (le16_eq_append b0 b1))
  · exact registerRead_of_data _ reg hp he rfl rfl (congrArg sext16 (be16_eq_append b0 b1))
  · exact registerRead_of_data _ reg hp he rfl rfl (congrArg sext16 (le16_eq_append b0 b1))

end Sys2Proof.Machine
end

section
/-! SUPPORT. The word reads step alike (R166), and whole register reads as runs (R160, R167, R218). -/

namespace Sys2Proof.Machine

/-! ### The word reads step alike (R166) -/

/-- `u` is `t` but for CMDREG and the responses: the same requests and the same trace events went out. -/
def SameWire (t u : State) : Prop :=
  requestsIn u.outputs = requestsIn t.outputs ∧ tracesIn u.outputs = tracesIn t.outputs ∧
    u = { t with cmdreg := u.cmdreg, outputs := u.outputs }

theorem SameWire.of_cmdreg (t : State) (w : CmdWord) : SameWire t { t with cmdreg := w } := ⟨rfl, rfl, rfl⟩

theorem requestsIn_append_response (os : List Output) (r : Response) :
    requestsIn (os ++ [.response r]) = requestsIn os := by
  simp [requestsIn]

theorem tracesIn_append_response (os : List Output) (r : Response) :
    tracesIn (os ++ [.response r]) = tracesIn os := by
  simp [tracesIn]

/-- A response is on neither the request ports nor the trace port, so its RESULT is free. -/
theorem SameWire.respond (t : State) (w : CmdWord) (st : Status) (count : Len) (r r' : ResultWord) (data : List Byte) :
    SameWire (t.respond st count r data) (({ t with cmdreg := w } : State).respond st count r' data) :=
  ⟨(requestsIn_append_response _ _).trans (requestsIn_append_response _ _).symm,
    (tracesIn_append_response _ _).trans (tracesIn_append_response _ _).symm, rfl⟩

/-- SETTLE does not read CMDREG. -/
theorem settleStep_of_cmdreg {s t : State} {w : CmdWord} (w' : CmdWord) {n : Len}
    (h : ({ s with cmdreg := w } : State).settleStep n = .next t) :
    ({ s with cmdreg := w' } : State).settleStep n = .next { t with cmdreg := w' } := by
  unfold State.settleStep at h ⊢
  dsimp only at h ⊢
  split at h
  next ht => cases h; exact if_pos ht
  next ht =>
    rw [if_neg ht]
    split at h
    next rest he => cases h; rfl
    next he => cases h; rfl
    next e rest hne he =>
      split at h
      · cases h
      next hr => cases h; exact if_neg hr

/-- What a register read does depends on its register, length and delay alone: its word shows in CMDREG only, its conversion
in the response only. -/
theorem registerRead_sameWire {s t : State} {w w' c : CmdWord} (c' : CmdWord) {reg : RegAddr} {n : Len} {delay : Ticks}
    {conv : Buf → ResultWord} (conv' : Buf → ResultWord)
    (h : ({ s with cmdreg := w } : State).registerRead c reg n delay conv = .next t) :
    ∃ u, ({ s with cmdreg := w' } : State).registerRead c' reg n delay conv' = .next u ∧ SameWire t u := by
  by_cases hs : s.phase = .settle
  · have hs' := (registerRead_of_settle (s := { s with cmdreg := w }) c conv hs).symm.trans h
    exact ⟨_, (registerRead_of_settle (s := { s with cmdreg := w' }) c' conv' hs).trans (settleStep_of_cmdreg w' hs'),
      .of_cmdreg t w'⟩
  rcases registerRead_next h with ⟨hp, st, info, hf, rfl⟩ | ⟨hp, hl, rfl⟩ | ⟨hp, info, count, rest, he, hc, rfl⟩ |
    ⟨hp, info, count, rest, he, rfl⟩ | ⟨hp, -⟩ | ⟨hp, -⟩ |
    ⟨hp, info, count, data, rest, he, rfl, hd, rfl⟩ | ⟨hp, info, count, data, rest, he, rfl⟩ | ⟨hp, rfl, hn⟩
  · exact ⟨_, registerRead_of_lifecycleFault c' conv' hp hf, .of_cmdreg _ w'⟩
  · exact ⟨_, registerRead_of_opened c' conv' hp hl, .of_cmdreg _ c'⟩
  · exact ⟨_, registerRead_of_select_ok c' conv' hp he hc, .of_cmdreg _ w'⟩
  · exact ⟨_, registerRead_of_select_error c' conv' hp he, .of_cmdreg _ w'⟩
  · exact absurd hp hs
  · exact absurd hp hs
  · exact ⟨_, registerRead_of_ok hp he hd, .respond _ w' _ _ _ _ _⟩
  · exact ⟨_, registerRead_of_read_error c' conv' hp he, .of_cmdreg _ w'⟩
  · have hw : s.phase = .selectWait ∨ s.phase = .dataWait := hp.imp_right fun hp => hp.resolve_left hs
    exact ⟨_, registerRead_of_no_reply c' conv' hw hn, .of_cmdreg _ w'⟩

/-- The word reads at given operands are the two-byte register reads. -/
theorem exec_of_wordReads {reg : RegAddr} {delay : Ticks} {i : Instr}
    (hi : i ∈ [Instr.readU16Be reg delay, .readU16Le reg delay, .readS16Be reg delay, .readS16Le reg delay]) :
    ∃ conv, ∀ s, exec i s = s.registerRead i.word reg 2 delay conv := by
  simp only [List.mem_cons, List.not_mem_nil, or_false] at hi
  rcases hi with rfl | rfl | rfl | rfl <;> exact ⟨_, fun _ => rfl⟩

/-- Settles O43, by `registerRead_sameWire`: the word reads differ in word and conversion only. -/
theorem wordReadsShareWire : Obligations.WordReadsShareWire := by
  intro reg delay s w w' i hi j hj t h
  obtain ⟨conv, hi⟩ := exec_of_wordReads hi
  obtain ⟨conv', hj⟩ := exec_of_wordReads hj
  rw [hi] at h
  rw [hj]
  exact registerRead_sameWire j.word conv' h

/-! ### Steps of a command in flight -/

theorem run_succ {M : Host.Core} {s t : M.State} (h : M.step s = .next t) (k : Nat) : M.run (k + 1) s = M.run k t := by
  simp only [Host.Core.run, h]

/-- In SETTLE a tick is the command's own (R218). -/
theorem ambient_of_tick_of_settle {s : State} {rest : List Event} (he : s.events = .tick :: rest)
    (hp : s.phase = .settle) : s.ambient = none := by
  simp [State.ambient, he, hp]

theorem step_of_holds {i : Instr} {s : State} (hd : decode i.word i.payload = .command i) (hi : s.Holds i)
    (ha : s.ambient = none) : step s = exec i s := by
  obtain ⟨hw, hm, hr⟩ := hi
  exact step_of_inFlight ha (ne_idle_of_mem_busyPhases hm) (inFlight_of_request hd hw hm hr)

/-- A command at the port that is not answered there is in flight after the step. -/
theorem start_of_port {i : Instr} {s t : State} {c : Command} {later : List Command} (hp : s.phase = .idle)
    (hq : s.port = c :: later) (hf : s.portFirst = true) (hd : decode c.word c.payload = .command i)
    (h : exec i { s with port := later } = .next t) (ht : t.phase ≠ .idle) : step s = .next t ∧ t.Holds i :=
  ⟨(step_of_port (ambient_of_portFirst hp (by simp [hq]) hf) hp hq hd).trans h,
    ((exec_move h).idle_or_holds (absurd hp)).resolve_left ht⟩

/-- A command in flight that its step does not answer is in flight after it. -/
theorem step_keeps_holds {i : Instr} {s t : State} (hd : decode i.word i.payload = .command i) (hi : s.Holds i)
    (ha : s.ambient = none) (h : exec i s = .next t) (ht : t.phase ≠ .idle) : step s = .next t ∧ t.Holds i :=
  ⟨(step_of_holds hd hi ha).trans h, ((exec_move h).idle_or_holds fun _ => hi).resolve_left ht⟩

/-! ### Whole register reads -/

section
variable {reg : RegAddr} {delay : Ticks} {x : Instr × Len × (Buf → ResultWord)}

/-- SETTLE takes as many ticks as TMR holds, then requests the data (R218); the next step is the one at the reply. -/
theorem run_of_settle (hx : x ∈ registerReads reg delay) (hd : decode x.1.word x.1.payload = .command x.1) {m : Nat}
    {s : State} {e : Event} {rest : List Event} (hi : s.Holds x.1) (hp : s.phase = .settle) (ht : s.tmr.toNat = m)
    (he : s.events = List.replicate m .tick ++ e :: rest) (hre : e.isReply = true) :
    Host.Core.run core (m + 2) s =
      exec x.1 (({ s with tmr := 0, events := e :: rest } : State).issue (.read x.2.1) .dataWait) := by
  induction m generalizing s with
  | zero =>
    have h0 : s.tmr = 0 := BitVec.eq_of_toNat_eq ht
    have he' : s.events = e :: rest := he
    obtain ⟨hstep, hi'⟩ := step_keeps_holds hd hi (ambient_of_reply (by simp [hp]) he' hre)
      ((exec_of_registerReads hx s).trans (registerRead_of_settled _ _ hp h0)) nofun
    rw [← h0, ← he']
    exact (run_two (M := core) hstep).trans (step_of_holds hd hi' (ambient_of_reply nofun he' hre))
  | succ m ih =>
    have he' : s.events = .tick :: (List.replicate m .tick ++ e :: rest) := he
    have hne : s.tmr ≠ 0 := fun h => by simp [h] at ht
    have htm : (s.tmr - 1).toNat = m := by bv_omega
    obtain ⟨hstep, hi'⟩ := step_keeps_holds hd hi (ambient_of_tick_of_settle he' hp)
      ((exec_of_registerReads hx s).trans (registerRead_of_tick _ _ hp hne he')) (by simp [hp])
    exact (run_succ (M := core) hstep (m + 2)).trans (ih hi' hp htm rfl)

/-- Of `s`, with a register read first at the port: the read has been accepted, its select has succeeded, DELAY has passed
and the data is requested. -/
def State.readRequested (s : State) (w : CmdWord) (reg : RegAddr) (n : Len) (later : List Command)
    (events : List Event) : State :=
  { s with
    cmdreg := w
    tmr := 0
    buf := ⟨reg, s.buf.b1, s.buf.b2⟩
    pending := some (.read n)
    phase := .dataWait
    port := later
    events := events
    outputs := s.outputs ++ [.request (.write [reg]), .trace ⟨.write, 1, [reg], none⟩, .request (.read n)] }

/-- A register read whose select succeeds requests its data after `DELAY + 3` steps (S7 to S10); the next is its step at the
reply. -/
theorem run_of_select_ok (hx : x ∈ registerReads reg delay) {s : State} {c : Command} {later : List Command} {info : Info}
    {e : Event} {rest : List Event} (hp : s.phase = .idle) (hl : s.lifecycle = .opened) (hq : s.port = c :: later)
    (hf : s.portFirst = true) (hd : decode c.word c.payload = .command x.1)
    (he : s.events = .writeReply false info 1 :: (List.replicate delay.toNat .tick ++ e :: rest))
    (hre : e.isReply = true) :
    Host.Core.run core (delay.toNat + 4) s = exec x.1 (s.readRequested x.1.word reg x.2.1 later (e :: rest)) := by
  obtain ⟨-, hw, hpl⟩ := decode_command hd
  have hd' : decode x.1.word x.1.payload = .command x.1 := by rw [hw, hpl, hd]
  obtain ⟨hstart, hi₁⟩ := start_of_port hp hq hf hd
    ((exec_of_registerReads hx _).trans (registerRead_of_opened _ _ hp hl)) nofun
  obtain ⟨hselect, hi₂⟩ := step_keeps_holds hd' hi₁ (ambient_of_reply nofun he rfl)
    ((exec_of_registerReads hx _).trans (registerRead_of_select_ok _ _ rfl he rfl)) nofun
  refine (run_succ (M := core) hstart (delay.toNat + 3)).trans <|
    (run_succ (M := core) hselect (delay.toNat + 2)).trans <|
    (run_of_settle hx hd' hi₂ rfl rfl rfl hre).trans <| congrArg (exec x.1) ?_
  simp [State.readRequested, State.issue, State.startSettle, State.emit, State.takeReply, State.fillBuf, State.latch,
    Buf.fill]

theorem length_le_two_of_registerReads (hx : x ∈ registerReads reg delay) : x.2.1.toNat ≤ 2 := by
  simp only [registerReads, List.mem_cons, List.not_mem_nil, or_false] at hx
  rcases hx with rfl | rfl | rfl | rfl | rfl <;> simp

end

/-- At most two bytes leave the third byte of BUF (log entry 16). -/
theorem fill_of_length_le_two (b : Buf) {data : List Byte} (h : data.length ≤ 2) :
    b.fill data = ⟨data.getD 0 b.b0, data.getD 1 b.b1, b.b2⟩ := by
  rw [Buf.fill, List.getD_eq_default _ _ h]

/-- Settles O39: `run_of_select_ok`, then the data. -/
theorem registerReadRun : Obligations.RegisterReadRun := by
  intro reg delay s x hx c later info info' data rest hp hl hq hf hd hlen he
  have hfill := fill_of_length_le_two ⟨reg, s.buf.b1, s.buf.b2⟩ (hlen.trans_le (length_le_two_of_registerReads hx))
  refine (run_of_select_ok hx hp hl hq hf hd he rfl).trans <| (exec_of_registerReads hx _).trans <|
    (registerRead_of_data _ reg rfl rfl hlen hfill rfl).trans <| congrArg Host.Outcome.next ?_
  simp [State.readRequested, hp]

/-- Settles O40: a failing select is the second step; a failing read comes after `run_of_select_ok`. -/
theorem registerReadFailures : Obligations.RegisterReadFailures := by
  intro reg delay s x hx c later info info' count data rest hp hl hq hf hd
  refine ⟨fun he => ⟨s.forgetBuf.buf, s.forgetBuf.freeIx, ?_⟩, fun he => ⟨s.forgetBuf.buf, s.forgetBuf.freeIx, ?_⟩⟩
  · have hx₁ := (exec_of_registerReads hx { s with port := later }).trans (registerRead_of_opened _ _ hp hl)
    obtain ⟨-, hi⟩ := start_of_port hp hq hf hd hx₁ nofun
    refine (run_two_of_reply hp hq hf hd hx₁ hi he rfl
      ((exec_of_registerReads hx _).trans (registerRead_of_select_error _ _ rfl he))).trans ?_
    simp [State.respond, State.forgetBuf, State.takeReply, State.issue, State.fillBuf, State.latch, hp]
  · refine (run_of_select_ok hx hp hl hq hf hd he rfl).trans <| (exec_of_registerReads hx _).trans <|
      (registerRead_of_read_error _ _ rfl rfl).trans <| congrArg Host.Outcome.next ?_
    simp [State.readRequested, State.respond, State.forgetBuf, State.takeReply, hp]

end Sys2Proof.Machine
end

section
/-! SUPPORT. The register writes (spec/44_register_write.md): one frame in one request, its reply, and whole writes as runs. -/

namespace Sys2Proof.Machine

section
variable {reg : RegAddr} {b : Byte} {v : Half} {x : Instr × List Byte × Buf}

/-- BUF holds the frame of a register write, and under a two-byte frame keeps its third byte (R23; log entry 16). -/
theorem fill_of_registerWrites {old : Buf} (hx : x ∈ registerWrites reg b v old) : old.fill x.2.1 = x.2.2 := by
  simp only [registerWrites, List.mem_cons, List.not_mem_nil, or_false] at hx
  rcases hx with rfl | rfl | rfl | rfl | rfl | rfl <;> rfl

/-- A register write in Open, as the state it goes to (S11). -/
theorem exec_registerWrites_of_opened {s : State} (hx : x ∈ registerWrites reg b v s.buf) (hp : s.phase = .idle)
    (hl : s.lifecycle = .opened) :
    exec x.1 s = .next { s with
      cmdreg := x.1.word
      buf := x.2.2
      pending := some (.write x.2.1)
      phase := .dataWait
      outputs := s.outputs ++ [.request (.write x.2.1)] } := by
  rw [exec_of_registerWrites hx, ← fill_of_registerWrites hx]
  exact registerWrite_of_opened _ hp hl

/-- A register write whose frame has been written, with the two outputs it ends on (S13). -/
theorem exec_registerWrites_of_ok {old : Buf} (hx : x ∈ registerWrites reg b v old) {s : State} {info : Info} {count : Len}
    {rest : List Event} (hp : s.phase = .dataWait) (he : s.events = .writeReply false info count :: rest)
    (hc : count.toNat = x.2.1.length) :
    exec x.1 s = .next { s with
      phase := .idle
      pending := none
      events := rest
      outputs := s.outputs ++
        [.trace ⟨.write, byteCount x.2.1, x.2.1, none⟩, .response ⟨responseWord .ok 0 0, []⟩] } := by
  rw [exec_of_registerWrites hx, registerWrite_of_ok _ hp he hc, emit_respond]
  rfl

theorem exec_registerWrites_of_error {old : Buf} (hx : x ∈ registerWrites reg b v old) {s : State} {info : Info}
    {count : Len} {rest : List Event} (hp : s.phase = .dataWait) (he : s.events = .writeReply true info count :: rest) :
    exec x.1 s = .next ((s.takeReply rest).forgetBuf.respond .transferError 0 info []) :=
  (exec_of_registerWrites hx s).trans (registerWrite_of_error _ hp he)

end

/-- Settles O20, by the frame in the request and in BUF. -/
theorem writeSendsOneFrame : Obligations.WriteSendsOneFrame :=
  fun _ _ _ _ _ hx => exec_registerWrites_of_opened hx

/-- Settles O21, reply by reply; a failing write leaves BUF free (R23). -/
theorem writeReplyEnds : Obligations.WriteReplyEnds := fun _ _ _ s _ hx _ _ _ hp =>
  ⟨fun he hc => ⟨s.cmdreg, s.buf, exec_registerWrites_of_ok hx hp he hc⟩,
    fun he => ⟨s.cmdreg, s.forgetBuf.buf, s.forgetBuf.freeIx, exec_registerWrites_of_error hx hp he⟩⟩

/-- Settles O41: the frame goes out in the first step, and the second is the write's step at the reply. -/
theorem registerWriteRun : Obligations.RegisterWriteRun := by
  intro reg b v s x hx c later info count rest hp hl hq hf hd
  have hsent := exec_registerWrites_of_opened (s := { s with port := later }) hx hp hl
  obtain ⟨-, hi⟩ := start_of_port hp hq hf hd hsent nofun
  refine ⟨fun he hc => ?_, fun he => ⟨s.forgetBuf.buf, s.forgetBuf.freeIx, ?_⟩⟩
  · refine (run_two_of_reply hp hq hf hd hsent hi he rfl (exec_registerWrites_of_ok hx rfl he hc)).trans ?_
    simp [byteCount, hp]
  · refine (run_two_of_reply hp hq hf hd hsent hi he rfl (exec_registerWrites_of_error hx rfl he)).trans ?_
    simp [State.respond, State.forgetBuf, State.takeReply, hp]

end Sys2Proof.Machine
end

section
/-! SUPPORT. The acceptance check's rejections (spec/60_exceptions.md R203 to R208) and the settle timer (R218). -/

namespace Sys2Proof.Machine

/-! ### Rejection by the lifecycle state (R208) -/

/-- In Closed the check lets only the accessors pass (R203). -/
theorem lifecycleFault_of_closed {i : Instr} (hbus : i ≠ .getBus) (haddr : i ≠ .getAddr) :
    lifecycleFault (admissionOf i) .closed = some (.channelClosed, 0) := by
  cases i with
  | getBus => exact absurd rfl hbus
  | getAddr => exact absurd rfl haddr
  | _ => rfl

/-- In Unbound the check lets only BIND pass (R208 item 2). -/
theorem lifecycleFault_of_unbound {i : Instr} (hi : ∀ addr bus, i ≠ .bind addr bus) :
    lifecycleFault (admissionOf i) .unbound = some (.illegalCommand, Subcode.noChannel.code) := by
  cases i with
  | bind addr bus => exact absurd rfl (hi addr bus)
  | _ => rfl

/-- Settles O7, by the acceptance check in Closed. -/
theorem closedChannelRejects : Obligations.ClosedChannelRejects := fun _ _ hbus haddr hp hl =>
  exec_of_lifecycleFault hp (hl ▸ lifecycleFault_of_closed hbus haddr)

/-- Settles O8, by the acceptance check in Unbound and, for BIND, in Open. -/
theorem noChannelAndAlreadyBoundReject : Obligations.NoChannelAndAlreadyBoundReject :=
  ⟨fun _ _ hi hp hl => exec_of_lifecycleFault hp (hl ▸ lifecycleFault_of_unbound hi),
    fun _ _ _ hp hl => exec_of_lifecycleFault hp (by rw [hl]; rfl)⟩

/-! ### The settle timer (R218) -/

/-- While TMR runs and nothing arrives SETTLE stands (log entry 10). -/
theorem registerRead_of_settling {s : State} (w : CmdWord) {reg : RegAddr} {n : Len} {delay : Ticks}
    (conv : Buf → ResultWord) (hp : s.phase = .settle) (ht : s.tmr ≠ 0) (he : s.events = []) :
    s.registerRead w reg n delay conv = .next s := by
  rw [registerRead_of_settle w conv hp, State.settleStep, if_neg ht, he]

/-- Settles O16: the end of SETTLE, a tick, and no event. -/
theorem readSettles : Obligations.ReadSettles := by
  intro reg delay s x hx hp
  rw [exec_of_registerReads hx]
  exact ⟨registerRead_of_settled _ _ hp, fun rest => registerRead_of_tick _ _ hp, registerRead_of_settling _ _ hp⟩

end Sys2Proof.Machine
end

section
/-! SUPPORT. One trace event for each successful transfer (spec/60_exceptions.md R222, R223). -/

namespace Sys2Proof.Machine

/-- The events that report a transport success: a write or read reply with `err = 0`. -/
def Event.isSuccess : Event → Bool
  | .writeReply err _ _ => !err
  | .readReply err _ _ _ => !err
  | _ => false

theorem Event.isSuccess_of_not_isReply {e : Event} (h : e.isReply = false) : e.isSuccess = false := by
  cases e with
  | present | reset | tick => rfl
  | bindReply | writeReply | readReply | releaseReply => cases h

theorem Event.isSuccess_of_isFailure {e : Event} (h : e.isFailure = true) : e.isSuccess = false := by
  cases e with
  | writeReply | readReply => exact congrArg (! ·) h
  | present | reset | tick | bindReply | releaseReply => rfl

/-- The step's event is a transport success that the sequencer waits for. -/
def State.Succeeds (s : State) : Prop :=
  s.phase.waits = true ∧ ∃ e rest, s.events = e :: rest ∧ e.isSuccess = true

theorem not_succeeds_of_phase {s : State} (h : s.phase.waits = false) : ¬ s.Succeeds :=
  fun ⟨hw, _⟩ => absurd (h.symm.trans hw) nofun

theorem not_succeeds_of_event {s : State} (h : ∀ e rest, s.events = e :: rest → e.isSuccess = false) : ¬ s.Succeeds :=
  fun ⟨_, e, rest, he, hs⟩ => absurd ((h e rest he).symm.trans hs) nofun

theorem not_succeeds_of_cons {s : State} {e : Event} {rest : List Event} (he : s.events = e :: rest)
    (h : e.isSuccess = false) : ¬ s.Succeeds :=
  not_succeeds_of_event (by simpa [he] using h)

/-- Of the outputs `os` that a step adds to those of `s`, what goes to the trace port: nothing without a success, the bytes
handed over at a write's success, the bytes received at a read's. -/
inductive Traces (s : State) (os : List Output) : Prop
  | silent (hs : ¬ s.Succeeds) (ht : tracesIn os = [])
  | wrote {bytes : List Byte} {info : Info} {count : Len} {rest : List Event} (hw : s.phase.waits = true)
      (he : s.events = .writeReply false info count :: rest) (hr : s.pending = some (.write bytes))
      (ht : tracesIn os = [⟨.write, byteCount bytes, bytes, none⟩])
  | got {info : Info} {count : Len} {data : List Byte} {rest : List Event} {delay : Option Ticks}
      (hw : s.phase.waits = true) (he : s.events = .readReply false info count data :: rest)
      (ht : tracesIn os = [⟨.read, count, data, delay⟩])

/-- The trace port does not look at the command port. -/
theorem Traces.of_port {s : State} {later : List Command} {os : List Output}
    (h : Traces { s with port := later } os) : Traces s os := by
  cases h with
  | silent hs ht => exact .silent hs ht
  | wrote hw he hr ht => exact .wrote hw he hr ht
  | got hw he ht => exact .got hw he ht

/-- A move of the command in flight, or of one at the port, traces its success and nothing else. -/
theorem Move.traces {i : Instr} {s t : State} (hm : Move i s t) (hs : s.phase ≠ .idle → s.Holds i) :
    ∃ os, t.outputs = s.outputs ++ os ∧ Traces s os := by
  have hrequest : s.phase ≠ .idle → s.pending = requestIn i s.phase := fun hp =>
    let ⟨_, _, hr⟩ := hs hp
    hr
  cases hm with
  | stays _ hn =>
    exact ⟨[], by simp, .silent (not_succeeds_of_event fun e rest he => Event.isSuccess_of_not_isReply (hn e rest he)) rfl⟩
  | ticked hp => exact ⟨[], by simp, .silent (not_succeeds_of_phase (by simp [hp, Phase.waits])) rfl⟩
  | rejected hp | answered hp | startsBind hp | starts hp | settled hp =>
    exact ⟨_, rfl, .silent (not_succeeds_of_phase (by simp [hp, Phase.waits])) rfl⟩
  | bound _ _ he | bindFailed _ he | released _ he | releaseFailed _ he =>
    exact ⟨_, rfl, .silent (not_succeeds_of_cons he rfl) rfl⟩
  | failed _ he hf => exact ⟨_, rfl, .silent (not_succeeds_of_cons he (Event.isSuccess_of_isFailure hf)) rfl⟩
  | selected hp _ hr _ he =>
    have hpending := hrequest (by simp [hp])
    rw [hp] at hpending
    exact ⟨_, rfl, .wrote (by simp [hp, Phase.waits]) he (hpending.trans hr) rfl⟩
  | wrote hp _ hr he =>
    have hpending := hrequest (by simp [hp])
    rw [hp] at hpending
    exact ⟨_, List.append_assoc _ _ _, .wrote (by simp [hp, Phase.waits]) he (hpending.trans hr) rfl⟩
  | got hp _ _ he => exact ⟨_, List.append_assoc _ _ _, .got (by simp [hp, Phase.waits]) he rfl⟩

/-- What is no command's step consumes no reply that is waited for. -/
theorem not_succeeds_of_ambient {s t : State} (h : s.ambient = some t) : ¬ s.Succeeds := by
  rcases ambient_some h with ⟨rest, he, -⟩ | ⟨c, rest, he, -⟩ | ⟨rest, he, -, -⟩ | ⟨e, rest, -, -, hp, -, -⟩
  · exact not_succeeds_of_cons he rfl
  · exact not_succeeds_of_cons he rfl
  · exact not_succeeds_of_cons he rfl
  · exact not_succeeds_of_phase (by simp [hp, Phase.waits])

/-- Under `CommandHeld` the command found in flight is the one held. -/
theorem State.CommandHeld.holds {s : State} {i : Instr} (h : s.CommandHeld) (hp : s.phase ≠ .idle)
    (hi : s.inFlight = some i) : s.Holds i := by
  obtain ⟨j, hj, hm, hr⟩ := h.resolve_left hp
  obtain rfl : i = j := Option.some.inj (hi.symm.trans hj)
  exact ⟨(decode_of_inFlight hi).1, hm, hr⟩

theorem step_traces {s t : State} (hs : s.CommandHeld) (h : step s = .next t) :
    ∃ os, t.outputs = s.outputs ++ os ∧ Traces s os := by
  rcases step_next h with ha | ⟨-, hp, -, rfl⟩ | ⟨-, hp, c, rest, sub, -, -, rfl⟩ | ⟨-, hp, c, rest, i, -, -, hm⟩ |
    ⟨-, hp, i, hi, hm⟩
  · exact ⟨[], by simp [ambient_outputs ha], .silent (not_succeeds_of_ambient ha) rfl⟩
  · exact ⟨[], by simp, .silent (not_succeeds_of_phase (by simp [hp, Phase.waits])) rfl⟩
  · exact ⟨_, rfl, .silent (not_succeeds_of_phase (by simp [hp, Phase.waits])) rfl⟩
  · obtain ⟨os, ho, ht⟩ := hm.traces (absurd hp)
    exact ⟨os, ho, ht.of_port⟩
  · exact hm.traces fun _ => hs.holds hp hi

/-- Settles O37, by `step_traces`: a success is a write's or a read's, and without one nothing is traced. -/
theorem traceOncePerSuccess : Obligations.TraceOncePerSuccess := by
  intro s t hs h
  obtain ⟨os, ho, htr⟩ := step_traces hs h
  refine ⟨os, ho, ?_⟩
  cases htr with
  | silent hn ht =>
    exact ⟨fun _ _ _ hw he => absurd ⟨hw, _, _, he, rfl⟩ hn, fun _ _ _ _ hw he => absurd ⟨hw, _, _, he, rfl⟩ hn,
      fun _ => ht⟩
  | wrote hw he hr ht =>
    refine ⟨fun _ _ _ _ _ => ⟨_, hr, ht⟩, fun _ _ _ _ _ he' => absurd (he.symm.trans he') (by simp), ?_⟩
    rintro (hw' | hn)
    · exact absurd (hw.symm.trans hw') nofun
    · exact absurd rfl ((hn _ _ he).1 _ _)
  | got hw he ht =>
    refine ⟨fun _ _ _ _ he' => absurd (he.symm.trans he') (by simp), fun info count data rest _ he' => ?_, ?_⟩
    · obtain ⟨⟨-, rfl, rfl⟩, -⟩ := by simpa using he.symm.trans he'
      exact ⟨_, ht⟩
    · rintro (hw' | hn)
      · exact absurd (hw.symm.trans hw') nofun
      · exact absurd rfl ((hn _ _ he).2 _ _ _)

end Sys2Proof.Machine
end

section
/-! SUPPORT. What was emitted is never read (spec/60_exceptions.md R225): putting outputs before those of a state commutes
with every operation, so with the step. -/

namespace Sys2Proof.Machine

/-- The state with `pre` emitted before everything else. -/
def State.after (pre : List Output) (s : State) : State := { s with outputs := pre ++ s.outputs }

/-- The end of a step with `pre` emitted before everything else. -/
def outAfter (pre : List Output) : Out → Out
  | .next t => .next (t.after pre)
  | .fault f => .fault f
  | .refused r => .refused r

section
variable (pre : List Output) (s : State)

/-! ### The other fields, and the operations on the state -/

@[simp] theorem State.after_lifecycle : (s.after pre).lifecycle = s.lifecycle := rfl
@[simp] theorem State.after_bus : (s.after pre).bus = s.bus := rfl
@[simp] theorem State.after_addr : (s.after pre).addr = s.addr := rfl
@[simp] theorem State.after_phase : (s.after pre).phase = s.phase := rfl
@[simp] theorem State.after_tmr : (s.after pre).tmr = s.tmr := rfl
@[simp] theorem State.after_buf : (s.after pre).buf = s.buf := rfl
@[simp] theorem State.after_port : (s.after pre).port = s.port := rfl
@[simp] theorem State.after_events : (s.after pre).events = s.events := rfl
@[simp] theorem State.after_freeIx : (s.after pre).freeIx = s.freeIx := rfl
@[simp] theorem State.after_isLate (e : Event) : (s.after pre).isLate e = s.isLate e := rfl
@[simp] theorem State.after_inFlight : (s.after pre).inFlight = s.inFlight := rfl

@[simp] theorem State.after_latch (w : CmdWord) : (s.after pre).latch w = (s.latch w).after pre := rfl
@[simp] theorem State.after_fillBuf (bytes : List Byte) : (s.after pre).fillBuf bytes = (s.fillBuf bytes).after pre := rfl
@[simp] theorem State.after_forgetBuf : (s.after pre).forgetBuf = s.forgetBuf.after pre := rfl
@[simp] theorem State.after_takeReply (rest : List Event) :
    (s.after pre).takeReply rest = (s.takeReply rest).after pre := rfl
@[simp] theorem State.after_startSettle (d : Ticks) : (s.after pre).startSettle d = (s.startSettle d).after pre := rfl
@[simp] theorem State.after_countDown (rest : List Event) :
    (s.after pre).countDown rest = (s.countDown rest).after pre := rfl
@[simp] theorem State.after_bindTo (addr : DevAddr) (bus : BusId) :
    (s.after pre).bindTo addr bus = (s.bindTo addr bus).after pre := rfl
@[simp] theorem State.after_closeChannel : (s.after pre).closeChannel = s.closeChannel.after pre := rfl

@[simp] theorem State.after_emit (o : Output) : (s.after pre).emit o = (s.emit o).after pre := by
  simp [State.emit, State.after]

@[simp] theorem State.after_issue (r : Request) (p : Phase) : (s.after pre).issue r p = (s.issue r p).after pre := by
  simp [State.issue, State.after]

@[simp] theorem State.after_respond (st : Status) (count : Len) (result : ResultWord) (data : List Byte) :
    (s.after pre).respond st count result data = (s.respond st count result data).after pre := by
  simp [State.respond, State.after]

@[simp] theorem State.after_raise (st : Status) (count : Len) (info : Info) (data : List Byte) :
    (s.after pre).raise st count info data = (s.raise st count info data).after pre := by
  cases st with
  | transferError => exact State.after_respond pre s.forgetBuf _ _ _ _
  | ok | bindError | channelClosed | illegalCommand => exact State.after_respond pre s _ _ _ _

end

/-! ### Acceptance, waiting and settling -/

section
variable {pre : List Output} {s : State}

theorem accept_after {a : Admission} {go : State → State} (hgo : ∀ t : State, go (t.after pre) = (go t).after pre) :
    (s.after pre).accept a go = outAfter pre (s.accept a go) := by
  unfold State.accept
  rw [State.after_lifecycle]
  split
  next => simp [outAfter]
  next => simp [outAfter, hgo]

theorem awaitReply_after {k : Event → State → Out}
    (hk : ∀ e (t : State), k e (t.after pre) = outAfter pre (k e t)) :
    (s.after pre).awaitReply k = outAfter pre (s.awaitReply k) := by
  unfold State.awaitReply
  rw [State.after_events]
  split
  next => rfl
  next e rest _ =>
    split
    next => exact hk e (s.takeReply rest)
    next => rfl

section
variable {ok : State → State} {bad : Info → State → State} (hok : ∀ t : State, ok (t.after pre) = (ok t).after pre)
  (hbad : ∀ info (t : State), bad info (t.after pre) = (bad info t).after pre)
include hok hbad

theorem awaitBind_after : (s.after pre).awaitBind ok bad = outAfter pre (s.awaitBind ok bad) :=
  awaitReply_after fun e t => by
    split <;> simp [outAfter, hok, hbad]

theorem awaitRelease_after : (s.after pre).awaitRelease ok bad = outAfter pre (s.awaitRelease ok bad) :=
  awaitReply_after fun e t => by
    split <;> simp [outAfter, hok, hbad]

end

theorem awaitWrite_after {n : Nat} {ok : Len → State → State} {bad : Len → Info → State → State}
    (hok : ∀ count (t : State), ok count (t.after pre) = (ok count t).after pre)
    (hbad : ∀ count info (t : State), bad count info (t.after pre) = (bad count info t).after pre) :
    (s.after pre).awaitWrite n ok bad = outAfter pre (s.awaitWrite n ok bad) :=
  awaitReply_after fun e t => by
    split
    next info count => split <;> simp [outAfter, hok]
    next => simp [outAfter, hbad]
    next => rfl

theorem awaitRead_after {n : Nat} {ok : Len → List Byte → State → State} {bad : Len → Info → State → State}
    (hok : ∀ count data (t : State), ok count data (t.after pre) = (ok count data t).after pre)
    (hbad : ∀ count info (t : State), bad count info (t.after pre) = (bad count info t).after pre) :
    (s.after pre).awaitRead n ok bad = outAfter pre (s.awaitRead n ok bad) :=
  awaitReply_after fun e t => by
    split
    next info count data => split <;> simp [outAfter, hok]
    next => simp [outAfter, hbad]
    next => rfl

theorem settleStep_after (n : Len) : (s.after pre).settleStep n = outAfter pre (s.settleStep n) := by
  unfold State.settleStep
  rw [State.after_tmr, State.after_events]
  split
  next => simp [outAfter]
  next =>
    split
    next => rfl
    next => rfl
    next => split <;> rfl

/-! ### The commands -/

theorem registerRead_after (w : CmdWord) (reg : RegAddr) (n : Len) (delay : Ticks) (conv : Buf → ResultWord) :
    (s.after pre).registerRead w reg n delay conv = outAfter pre (s.registerRead w reg n delay conv) := by
  unfold State.registerRead
  rw [State.after_phase]
  split
  next => exact accept_after (by simp)
  next => exact awaitWrite_after (by simp) (by simp)
  next => exact settleStep_after n
  next => exact awaitRead_after (by simp) (by simp)
  next => rfl
  next => rfl

theorem registerWrite_after (w : CmdWord) (frame : List Byte) :
    (s.after pre).registerWrite w frame = outAfter pre (s.registerWrite w frame) := by
  unfold State.registerWrite
  rw [State.after_phase]
  split
  next => exact accept_after (by simp)
  next => exact awaitWrite_after (by simp) (by simp)
  all_goals rfl

theorem execBind_after (addr : DevAddr) (bus : BusId) :
    execBind addr bus (s.after pre) = outAfter pre (execBind addr bus s) := by
  unfold execBind
  rw [State.after_phase]
  split
  next => exact accept_after (by simp)
  next => exact awaitBind_after (by simp) (by simp)
  all_goals rfl

theorem execClose_after : execClose (s.after pre) = outAfter pre (execClose s) := by
  unfold execClose
  rw [State.after_phase]
  split
  next => exact accept_after (by simp)
  next => exact awaitRelease_after (by simp) (by simp)
  all_goals rfl

theorem execGetBus_after : execGetBus (s.after pre) = outAfter pre (execGetBus s) := by
  unfold execGetBus
  rw [State.after_phase]
  split
  next => exact accept_after (by simp)
  all_goals rfl

theorem execGetAddr_after : execGetAddr (s.after pre) = outAfter pre (execGetAddr s) := by
  unfold execGetAddr
  rw [State.after_phase]
  split
  next => exact accept_after (by simp)
  all_goals rfl

theorem execWriteBytes_after (len : Len) (payload : List Byte) :
    execWriteBytes len payload (s.after pre) = outAfter pre (execWriteBytes len payload s) := by
  unfold execWriteBytes
  rw [State.after_phase]
  split
  next => exact accept_after (by simp)
  next => exact awaitWrite_after (by simp) (by simp)
  all_goals rfl

theorem execReadBytes_after (len : Len) : execReadBytes len (s.after pre) = outAfter pre (execReadBytes len s) := by
  unfold execReadBytes
  rw [State.after_phase]
  split
  next => exact accept_after (by simp)
  next => exact awaitRead_after (by simp) (by simp)
  all_goals rfl

theorem exec_after (i : Instr) : exec i (s.after pre) = outAfter pre (exec i s) := by
  cases i with
  | bind addr bus => exact execBind_after addr bus
  | close => exact execClose_after
  | getBus => exact execGetBus_after
  | getAddr => exact execGetAddr_after
  | writeBytes len payload => exact execWriteBytes_after len payload
  | readBytes len => exact execReadBytes_after len
  | readU8 | readU16Be | readU16Le | readS16Be | readS16Le => exact registerRead_after ..
  | writeU8 | writeS8 | writeU16Be | writeU16Le | writeS16Be | writeS16Le => exact registerWrite_after ..

/-! ### The step -/

theorem ambient_after : (s.after pre).ambient = s.ambient.map (State.after pre) := by
  unfold State.ambient
  rw [State.after_events]
  split
  next => rfl
  next => rfl
  next e rest _ _ =>
    rw [State.after_phase, State.after_port, State.after_isLate]
    split
    next => rfl
    next =>
      split
      next => rfl
      next => split <;> rfl
      next => split <;> rfl

theorem step_after : step (s.after pre) = outAfter pre (step s) := by
  unfold step
  rw [ambient_after, State.after_phase, State.after_port, State.after_inFlight]
  cases s.ambient with
  | some t => rfl
  | none =>
    simp only [Option.map_none]
    split
    next =>
      split
      next => rfl
      next c rest _ =>
        split
        next i _ => exact exec_after (s := { s with port := rest }) i
        next sub _ => exact congrArg Host.Outcome.next (State.after_raise pre { s with port := rest } _ _ _ _)
    all_goals
      split
      next i _ => exact exec_after i
      next => rfl

end

/-- Settles O38, by `step_after`: both steps are that of the state with no record, each with its own record before. -/
theorem outputsNeverRead : Obligations.OutputsNeverRead := by
  intro s other
  have hs (pre : List Output) :
      step { s with outputs := pre } = outAfter pre (step { s with outputs := [] }) := by
    rw [← step_after]
    simp [State.after]
  have hself := hs s.outputs
  rw [hs other]
  change step s = _ at hself
  rw [hself]
  cases step { s with outputs := [] } with
  | next u => exact ⟨fun t ht => by cases ht; exact ⟨u.outputs, rfl, rfl⟩, nofun, nofun⟩
  | fault f => exact ⟨nofun, fun g hg => by cases hg; rfl, nofun⟩
  | refused r => exact ⟨nofun, nofun, fun g hg => by cases hg; rfl⟩

end Sys2Proof.Machine
end

section
/-! SUPPORT. Reset and waiting in IDLE (spec/70_reset_and_hazards.md): what stays at the command port and who is owed a late
reply. -/

namespace Sys2Proof.Machine

/-! ### What no command's own step touches -/

/-- No command's own step takes from the command port or adds to it (R246). -/
theorem Move.port {i : Instr} {s t : State} (hm : Move i s t) : t.port = s.port := by
  cases hm <;> rfl

/-- No command's own step changes which abandoned requests are owed a reply (R241). -/
theorem Move.abandoned {i : Instr} {s t : State} (hm : Move i s t) : t.abandoned = s.abandoned := by
  cases hm <;> rfl

/-- A presented command joins the port in every phase, unless in IDLE another one goes first (R246). -/
theorem ambient_of_present {s : State} {c : Command} {rest : List Event} (he : s.events = .present c :: rest)
    (hq : s.phase ≠ .idle ∨ s.port = []) : s.ambient = some (s.enqueue c rest) := by
  rcases hq with hq | hq <;> simp [State.ambient, he, hq]

/-! ### Late replies -/

/-- The reply to a request that a reset has just abandoned is late (R241). -/
theorem isLate_resetInput {s : State} {r : Request} {e : Event} (hq : s.pending = some r) (hr : r.repliedBy e = true)
    (rest : List Event) : (s.resetInput rest).isLate e = true :=
  List.any_eq_true.mpr ⟨r, by simp [hq], hr⟩

/-- A reply that is not late answers no abandoned request. -/
theorem eraseP_abandoned_of_not_isLate {s : State} {e : Event} (h : s.isLate e = false) :
    s.abandoned.eraseP (·.repliedBy e) = s.abandoned :=
  List.eraseP_of_forall_not (List.any_eq_false.mp h)

/-! ### Reset, the port, late replies, waiting -/

/-- Settles O23, by `ambient_of_reset`: the reset comes before anything else in every phase. -/
theorem resetInputAbandons : Obligations.ResetInputAbandons := fun _ _ he =>
  ⟨_, _, _, step_of_ambient (ambient_of_reset he)⟩

/-- Settles O26, by `Move.port`: with a command in flight only a presentation changes the port. -/
theorem portHeldWhileBusy : Obligations.PortHeldWhileBusy := by
  intro s t hp h
  rcases step_move h with ha | ⟨-, hi, -⟩ | ⟨-, hi, -⟩ | ⟨-, -, i, hm⟩
  · rcases ambient_some ha with ⟨rest, -, rfl⟩ | ⟨c, rest, he, rfl⟩ | ⟨rest, -, -, rfl⟩ | ⟨e, rest, -, -, hi, -⟩
    · exact .inl rfl
    · exact .inr ⟨c, rest, he, rfl⟩
    · exact .inl rfl
    · exact absurd hi hp
  · exact absurd hi hp
  · exact absurd hi hp
  · exact .inl hm.port

/-- After a reset with a request outstanding, that request's reply is discarded, whatever waits at the port (R241). -/
theorem run_of_reset_of_late {s : State} {r : Request} {e : Event} {rest : List Event} (hq : s.pending = some r)
    (hr : r.repliedBy e = true) (he : s.events = .reset :: e :: rest) :
    Host.Core.run core 2 s = .next ((s.resetInput (e :: rest)).discardReply e rest) := by
  have hreset : step s = .next (s.resetInput (e :: rest)) := step_of_ambient (ambient_of_reset he)
  have hlate : step (s.resetInput (e :: rest)) = .next ((s.resetInput (e :: rest)).discardReply e rest) :=
    step_of_ambient (ambient_of_late rfl rfl (isLate_resetInput hq hr _))
  rw [run_succ (M := core) hreset, run_succ (M := core) hlate]
  rfl

/-- What is owed a late reply changes only where a reset abandons a request and where IDLE discards such a reply (R241). -/
theorem step_abandoned {s t : State} (h : step s = .next t) (hne : t.abandoned ≠ s.abandoned) :
    (∃ rest, s.events = .reset :: rest ∧ t.abandoned = s.abandoned ++ s.pending.toList) ∨
    (∃ e rest, s.events = e :: rest ∧ s.phase = .idle ∧ s.isLate e = true ∧
      t.abandoned = s.abandoned.eraseP (·.repliedBy e)) := by
  rcases step_move h with ha | ⟨-, -, -, rfl⟩ | ⟨-, -, c, later, i, -, hm⟩ | ⟨-, -, i, hm⟩
  · rcases ambient_some ha with ⟨rest, he, rfl⟩ | ⟨c, rest, -, rfl⟩ | ⟨rest, -, -, rfl⟩ | ⟨e, rest, he, -, hp, -, rfl⟩
    · exact .inl ⟨rest, he, rfl⟩
    · exact absurd rfl hne
    · exact absurd rfl hne
    · refine .inr ⟨e, rest, he, hp, ?_, rfl⟩
      by_contra hl
      exact hne (eraseP_abandoned_of_not_isLate (Bool.eq_false_of_not_eq_true hl))
  · exact absurd rfl hne
  · exact absurd hm.abandoned hne
  · exact absurd hm.abandoned hne

/-- Settles O57, by `run_of_reset_of_late` and `step_abandoned`. -/
theorem lateReplyDiscarded : Obligations.LateReplyDiscarded := by
  refine ⟨fun s r e rest hq hr he => ?_, fun _ _ => step_abandoned⟩
  rw [run_of_reset_of_late hq hr he, State.discardReply, State.resetInput_abandoned, hq]
  exact ⟨_, _, _, rfl⟩

/-- Settles O58, by `step_of_empty_port` and `ambient_of_present`. -/
theorem idleWaitsForCommand : Obligations.IdleWaitsForCommand := by
  refine ⟨fun s hp hq he => step_of_empty_port (ambient_of_no_event he) hp hq, fun s c rest _ hq he => ?_⟩
  have hpresent : step s = .next (s.enqueue c rest) := step_of_ambient (ambient_of_present he (.inr hq))
  simpa [State.enqueue, hq] using hpresent

end Sys2Proof.Machine
end
